-- ==== Sys2Proof/Word.lean ====
section
/-! DEFINITION. The words of the block: bytes, time values, line levels (00_scope.md R9, 10_state.md R23). -/

namespace Sys2Proof

/-- One byte of a frame, and one command word (R51, R70). -/
abbrev Byte := BitVec 8

/-- A time counter, `TIME_W` = 64 bits wide (R6, R101). -/
abbrev Time := BitVec 64

/-- The source's BitLevel, "enum {HIGH, LOW}": `high` is the line level 1 and `low` the level 0 (R9). -/
inductive Level where
  | low
  | high
deriving DecidableEq, Repr, Inhabited

/-- A 1 bit is sent as HIGH and a 0 bit as LOW (R75). -/
def Level.ofBool : Bool → Level
  | true => .high
  | false => .low

/-- The level as the bit the STATUS field LINE shows (R24). -/
def Level.toBool : Level → Bool
  | .high => true
  | .low => false

end Sys2Proof
end

