-- ==== Sys2Proof/Syntax.lean ====
section
/-! DEFINITION. The commands: one constructor per row of spec/opcode_table.json (30_encoding.md R70-R72). -/

namespace Sys2Proof

/-- A command word read by its row of the opcode table. Commands have no operands and no immediates (R73): the argument of
a reserved row holds the bits the row leaves open (`m` in the table), so that no bit of a word is lost. -/
inductive Instr where
  /-- NOP, `0x00` (R182). -/
  | nop
  /-- RUN, `0x10` (R183). -/
  | run
  /-- TX_IDLE, `0x20` (R184). -/
  | txIdle
  /-- TX_NEXT, `0x30` (R185). -/
  | txNext
  /-- RESERVED_OP4, `0100mmmm`: illegal (R72, R186). -/
  | reservedOp4 (m : BitVec 4)
  /-- RESERVED_OP5, `0101mmmm`: illegal (R72, R186). -/
  | reservedOp5 (m : BitVec 4)
  /-- RESERVED_OP6, `0110mmmm`: illegal (R72, R186). -/
  | reservedOp6 (m : BitVec 4)
  /-- RESERVED_OP7, `0111mmmm`: illegal (R72, R186). -/
  | reservedOp7 (m : BitVec 4)
  /-- RESERVED_OP8, `1000mmmm`: illegal (R72, R186). -/
  | reservedOp8 (m : BitVec 4)
  /-- RESERVED_OP9, `1001mmmm`: illegal (R72, R186). -/
  | reservedOp9 (m : BitVec 4)
  /-- RESERVED_OPA, `1010mmmm`: illegal (R72, R186). -/
  | reservedOpA (m : BitVec 4)
  /-- RESERVED_OPB, `1011mmmm`: illegal (R72, R186). -/
  | reservedOpB (m : BitVec 4)
  /-- RESERVED_OPC, `1100mmmm`: illegal (R72, R186). -/
  | reservedOpC (m : BitVec 4)
  /-- RESERVED_OPD, `1101mmmm`: illegal (R72, R186). -/
  | reservedOpD (m : BitVec 4)
  /-- RESERVED_OPE, `1110mmmm`: illegal (R72, R186). -/
  | reservedOpE (m : BitVec 4)
  /-- RESERVED_OPF, `1111mmmm`: illegal (R72, R186). -/
  | reservedOpF (m : BitVec 4)
  /-- RESERVED_MBZ_OP0_1xxx, `00001mmm`: illegal (R72, R186). -/
  | reservedMbzOp0_1xxx (m : BitVec 3)
  /-- RESERVED_MBZ_OP0_01xx, `000001mm`: illegal (R72, R186). -/
  | reservedMbzOp0_01xx (m : BitVec 2)
  /-- RESERVED_MBZ_OP0_001x, `0000001m`: illegal (R72, R186). -/
  | reservedMbzOp0_001x (m : BitVec 1)
  /-- RESERVED_MBZ_OP0_0001, `00000001`: illegal (R72, R186). -/
  | reservedMbzOp0_0001
  /-- RESERVED_MBZ_OP1_1xxx, `00011mmm`: illegal (R72, R186). -/
  | reservedMbzOp1_1xxx (m : BitVec 3)
  /-- RESERVED_MBZ_OP1_01xx, `000101mm`: illegal (R72, R186). -/
  | reservedMbzOp1_01xx (m : BitVec 2)
  /-- RESERVED_MBZ_OP1_001x, `0001001m`: illegal (R72, R186). -/
  | reservedMbzOp1_001x (m : BitVec 1)
  /-- RESERVED_MBZ_OP1_0001, `00010001`: illegal (R72, R186). -/
  | reservedMbzOp1_0001
  /-- RESERVED_MBZ_OP2_1xxx, `00101mmm`: illegal (R72, R186). -/
  | reservedMbzOp2_1xxx (m : BitVec 3)
  /-- RESERVED_MBZ_OP2_01xx, `001001mm`: illegal (R72, R186). -/
  | reservedMbzOp2_01xx (m : BitVec 2)
  /-- RESERVED_MBZ_OP2_001x, `0010001m`: illegal (R72, R186). -/
  | reservedMbzOp2_001x (m : BitVec 1)
  /-- RESERVED_MBZ_OP2_0001, `00100001`: illegal (R72, R186). -/
  | reservedMbzOp2_0001
  /-- RESERVED_MBZ_OP3_1xxx, `00111mmm`: illegal (R72, R186). -/
  | reservedMbzOp3_1xxx (m : BitVec 3)
  /-- RESERVED_MBZ_OP3_01xx, `001101mm`: illegal (R72, R186). -/
  | reservedMbzOp3_01xx (m : BitVec 2)
  /-- RESERVED_MBZ_OP3_001x, `0011001m`: illegal (R72, R186). -/
  | reservedMbzOp3_001x (m : BitVec 1)
  /-- RESERVED_MBZ_OP3_0001, `00110001`: illegal (R72, R186). -/
  | reservedMbzOp3_0001
deriving DecidableEq, Repr

end Sys2Proof
end

