-- ==== Sys2Proof/Decode.lean ====
section
/-! DEFINITION. Decoding and encoding the command word CMD8 (30_encoding.md R70-R72, 46_commands.md R181), and the rows of
spec/opcode_table.json as data. -/

namespace Sys2Proof

/-- `OP`, bits 7:4 of the command word (R70). -/
def opField (w : Byte) : BitVec 4 := w.extractLsb' 4 4

/-- `MBZ`, bits 3:0 of the command word (R70). -/
def mbzField (w : Byte) : BitVec 4 := w.extractLsb' 0 4

/-- The five rows that share an `OP` of at most 3: `MBZ = 0` is the legal command, and a non-zero `MBZ` belongs to the row of
its highest set bit (R72 and the opcode table's `1xxx`, `01xx`, `001x`, `0001`). -/
def decodeMbz (legal : Instr) (r1xxx : BitVec 3 → Instr) (r01xx : BitVec 2 → Instr) (r001x : BitVec 1 → Instr)
    (r0001 : Instr) (m : BitVec 4) : Instr :=
  if m = 0#4 then legal
  else if m.getLsbD 3 then r1xxx (m.extractLsb' 0 3)
  else if m.getLsbD 2 then r01xx (m.extractLsb' 0 2)
  else if m.getLsbD 1 then r001x (m.extractLsb' 0 1)
  else r0001

/-- Decoding an accepted word: "Decoding is total: every one of the 256 words has exactly one" meaning (R181). -/
def decode (w : Byte) : Instr :=
  match (opField w).toNat with
  | 0 => decodeMbz .nop .reservedMbzOp0_1xxx .reservedMbzOp0_01xx .reservedMbzOp0_001x .reservedMbzOp0_0001 (mbzField w)
  | 1 => decodeMbz .run .reservedMbzOp1_1xxx .reservedMbzOp1_01xx .reservedMbzOp1_001x .reservedMbzOp1_0001 (mbzField w)
  | 2 => decodeMbz .txIdle .reservedMbzOp2_1xxx .reservedMbzOp2_01xx .reservedMbzOp2_001x .reservedMbzOp2_0001 (mbzField w)
  | 3 => decodeMbz .txNext .reservedMbzOp3_1xxx .reservedMbzOp3_01xx .reservedMbzOp3_001x .reservedMbzOp3_0001 (mbzField w)
  | 4 => .reservedOp4 (mbzField w)
  | 5 => .reservedOp5 (mbzField w)
  | 6 => .reservedOp6 (mbzField w)
  | 7 => .reservedOp7 (mbzField w)
  | 8 => .reservedOp8 (mbzField w)
  | 9 => .reservedOp9 (mbzField w)
  | 10 => .reservedOpA (mbzField w)
  | 11 => .reservedOpB (mbzField w)
  | 12 => .reservedOpC (mbzField w)
  | 13 => .reservedOpD (mbzField w)
  | 14 => .reservedOpE (mbzField w)
  | _ => .reservedOpF (mbzField w)

/-- The word of an instruction: the row's fixed bits, then the bits the row leaves open (R71, R72, spec/opcode_table.json). -/
def encode : Instr → Byte
  | .nop => 0b00000000#8
  | .run => 0b00010000#8
  | .txIdle => 0b00100000#8
  | .txNext => 0b00110000#8
  | .reservedOp4 m => 0b0100#4 ++ m
  | .reservedOp5 m => 0b0101#4 ++ m
  | .reservedOp6 m => 0b0110#4 ++ m
  | .reservedOp7 m => 0b0111#4 ++ m
  | .reservedOp8 m => 0b1000#4 ++ m
  | .reservedOp9 m => 0b1001#4 ++ m
  | .reservedOpA m => 0b1010#4 ++ m
  | .reservedOpB m => 0b1011#4 ++ m
  | .reservedOpC m => 0b1100#4 ++ m
  | .reservedOpD m => 0b1101#4 ++ m
  | .reservedOpE m => 0b1110#4 ++ m
  | .reservedOpF m => 0b1111#4 ++ m
  | .reservedMbzOp0_1xxx m => 0b00001#5 ++ m
  | .reservedMbzOp0_01xx m => 0b000001#6 ++ m
  | .reservedMbzOp0_001x m => 0b0000001#7 ++ m
  | .reservedMbzOp0_0001 => 0b00000001#8
  | .reservedMbzOp1_1xxx m => 0b00011#5 ++ m
  | .reservedMbzOp1_01xx m => 0b000101#6 ++ m
  | .reservedMbzOp1_001x m => 0b0001001#7 ++ m
  | .reservedMbzOp1_0001 => 0b00010001#8
  | .reservedMbzOp2_1xxx m => 0b00101#5 ++ m
  | .reservedMbzOp2_01xx m => 0b001001#6 ++ m
  | .reservedMbzOp2_001x m => 0b0010001#7 ++ m
  | .reservedMbzOp2_0001 => 0b00100001#8
  | .reservedMbzOp3_1xxx m => 0b00111#5 ++ m
  | .reservedMbzOp3_01xx m => 0b001101#6 ++ m
  | .reservedMbzOp3_001x m => 0b0011001#7 ++ m
  | .reservedMbzOp3_0001 => 0b00110001#8

/-- Whether the instruction is one of the four legal commands of R71; every other row is reserved or illegal (R72). -/
def Instr.isLegal : Instr → Bool
  | .nop | .run | .txIdle | .txNext => true
  | .reservedOp4 _ => false
  | .reservedOp5 _ => false
  | .reservedOp6 _ => false
  | .reservedOp7 _ => false
  | .reservedOp8 _ => false
  | .reservedOp9 _ => false
  | .reservedOpA _ => false
  | .reservedOpB _ => false
  | .reservedOpC _ => false
  | .reservedOpD _ => false
  | .reservedOpE _ => false
  | .reservedOpF _ => false
  | .reservedMbzOp0_1xxx _ => false
  | .reservedMbzOp0_01xx _ => false
  | .reservedMbzOp0_001x _ => false
  | .reservedMbzOp0_0001 => false
  | .reservedMbzOp1_1xxx _ => false
  | .reservedMbzOp1_01xx _ => false
  | .reservedMbzOp1_001x _ => false
  | .reservedMbzOp1_0001 => false
  | .reservedMbzOp2_1xxx _ => false
  | .reservedMbzOp2_01xx _ => false
  | .reservedMbzOp2_001x _ => false
  | .reservedMbzOp2_0001 => false
  | .reservedMbzOp3_1xxx _ => false
  | .reservedMbzOp3_01xx _ => false
  | .reservedMbzOp3_001x _ => false
  | .reservedMbzOp3_0001 => false

/-- One row of spec/opcode_table.json: a word is the row's when its bits under `mask` are `pattern`. -/
structure Row where
  mnemonic : String
  pattern  : Byte
  mask     : Byte
deriving DecidableEq, Repr

/-- The row an instruction stands for, with the table's own mnemonic, match and mask. -/
def tableRow : Instr → Row
  | .nop => ⟨"NOP", 0x00#8, 0xFF#8⟩
  | .run => ⟨"RUN", 0x10#8, 0xFF#8⟩
  | .txIdle => ⟨"TX_IDLE", 0x20#8, 0xFF#8⟩
  | .txNext => ⟨"TX_NEXT", 0x30#8, 0xFF#8⟩
  | .reservedOp4 _ => ⟨"RESERVED_OP4", 0x40#8, 0xF0#8⟩
  | .reservedOp5 _ => ⟨"RESERVED_OP5", 0x50#8, 0xF0#8⟩
  | .reservedOp6 _ => ⟨"RESERVED_OP6", 0x60#8, 0xF0#8⟩
  | .reservedOp7 _ => ⟨"RESERVED_OP7", 0x70#8, 0xF0#8⟩
  | .reservedOp8 _ => ⟨"RESERVED_OP8", 0x80#8, 0xF0#8⟩
  | .reservedOp9 _ => ⟨"RESERVED_OP9", 0x90#8, 0xF0#8⟩
  | .reservedOpA _ => ⟨"RESERVED_OPA", 0xA0#8, 0xF0#8⟩
  | .reservedOpB _ => ⟨"RESERVED_OPB", 0xB0#8, 0xF0#8⟩
  | .reservedOpC _ => ⟨"RESERVED_OPC", 0xC0#8, 0xF0#8⟩
  | .reservedOpD _ => ⟨"RESERVED_OPD", 0xD0#8, 0xF0#8⟩
  | .reservedOpE _ => ⟨"RESERVED_OPE", 0xE0#8, 0xF0#8⟩
  | .reservedOpF _ => ⟨"RESERVED_OPF", 0xF0#8, 0xF0#8⟩
  | .reservedMbzOp0_1xxx _ => ⟨"RESERVED_MBZ_OP0_1xxx", 0x08#8, 0xF8#8⟩
  | .reservedMbzOp0_01xx _ => ⟨"RESERVED_MBZ_OP0_01xx", 0x04#8, 0xFC#8⟩
  | .reservedMbzOp0_001x _ => ⟨"RESERVED_MBZ_OP0_001x", 0x02#8, 0xFE#8⟩
  | .reservedMbzOp0_0001 => ⟨"RESERVED_MBZ_OP0_0001", 0x01#8, 0xFF#8⟩
  | .reservedMbzOp1_1xxx _ => ⟨"RESERVED_MBZ_OP1_1xxx", 0x18#8, 0xF8#8⟩
  | .reservedMbzOp1_01xx _ => ⟨"RESERVED_MBZ_OP1_01xx", 0x14#8, 0xFC#8⟩
  | .reservedMbzOp1_001x _ => ⟨"RESERVED_MBZ_OP1_001x", 0x12#8, 0xFE#8⟩
  | .reservedMbzOp1_0001 => ⟨"RESERVED_MBZ_OP1_0001", 0x11#8, 0xFF#8⟩
  | .reservedMbzOp2_1xxx _ => ⟨"RESERVED_MBZ_OP2_1xxx", 0x28#8, 0xF8#8⟩
  | .reservedMbzOp2_01xx _ => ⟨"RESERVED_MBZ_OP2_01xx", 0x24#8, 0xFC#8⟩
  | .reservedMbzOp2_001x _ => ⟨"RESERVED_MBZ_OP2_001x", 0x22#8, 0xFE#8⟩
  | .reservedMbzOp2_0001 => ⟨"RESERVED_MBZ_OP2_0001", 0x21#8, 0xFF#8⟩
  | .reservedMbzOp3_1xxx _ => ⟨"RESERVED_MBZ_OP3_1xxx", 0x38#8, 0xF8#8⟩
  | .reservedMbzOp3_01xx _ => ⟨"RESERVED_MBZ_OP3_01xx", 0x34#8, 0xFC#8⟩
  | .reservedMbzOp3_001x _ => ⟨"RESERVED_MBZ_OP3_001x", 0x32#8, 0xFE#8⟩
  | .reservedMbzOp3_0001 => ⟨"RESERVED_MBZ_OP3_0001", 0x31#8, 0xFF#8⟩

/-- A command is one word, of 8 bits (R70): the instruction that the table's word `w` of `nbits` bits decodes to. Bits above
`nbits` are 0; a length of more than one word is no command. -/
def decodeTableWord (nbits w : Nat) : Option Instr :=
  if nbits ≤ 8 then some (decode (BitVec.ofNat 8 (w % 2 ^ nbits))) else none

end Sys2Proof
end

