-- ==== Sys2Proof/Config.lean ====
section
/-! DEFINITION. The implementation parameters of 00_scope.md R6, and the model's free values. -/

namespace Sys2Proof

/-- The block's memory, the frame store of 20_memory.md R50, as address and byte pairs.
`Memory.wf` (Machine/Memory.lean) is its one canonical form. -/
abbrev Memory := List Host.Cell

/-- The constants of R6, fixed "for the whole life of the block, from reset onward; none is a register".
A state carries the one it runs under and no step changes it (log entry 1).
`R` and `Y` are "≥ 0" by their type; `Config.wf` (WellFormed.lean) is the rest of R7. -/
structure Config where
  /-- `N` (FRAME_LEN): bytes per frame. -/
  frameLen    : Nat
  /-- `P` (NUM_PATTERNS): number of pattern frames. -/
  numPatterns : Nat
  /-- `D` (BIT_US): bit duration in ticks of 1 µs. -/
  bitUs       : Nat
  /-- `R` (ROT_MS): rotation interval in ms. -/
  rotMs       : Nat
  /-- `Y` (YIELD_US): inter-iteration yield in ticks. -/
  yieldUs     : Nat
  /-- `IDLE` and `PAT[0..P-1]`, laid out as the frame store (R50, R51). -/
  store       : Memory
deriving DecidableEq, Repr

/-- The configuration `State.reset` carries. `R` = 2000 is "2000 for this hardware", `Y` = 10000 its default (R6).
DESIGN CHOICE (log entry 2): the spec leaves `N`, `P`, `D` and the frames OPEN; `N` = 12, `P` = 3, `D` = 500 are those of
95_test_vectors.md V-L1-7, and no frame byte is listed. -/
def Config.initial : Config :=
  { frameLen := 12, numPatterns := 3, bitUs := 500, rotMs := 2000, yieldUs := 10000, store := [] }

/-- The pad's level in a tick with `pin_ready = 0`: "any level, chosen afresh each tick, with no law relating it to
`line_q`" (42_line_driver.md R121). A free value (log entry 4): it has no body, and `State.padDraws` numbers the draws. -/
opaque Config.freePad : Nat → Level

end Sys2Proof
end

