-- ==== Sys2Proof/Machine/Memory.lean ====
section
/-! DEFINITION. The frame store as a memory in one canonical form (20_memory.md R50-R53): reading a byte, and the listing and
loading of bytes by which a configuration is made. No rule of the block writes it (R53). -/

namespace Sys2Proof

/-- What an address of the frame store that is not listed reads as. DESIGN CHOICE (log entry 3): the spec leaves every
frame's bytes OPEN (R6). -/
def Memory.unlisted : Byte := 0x00#8

/-- The canonical form: addresses strictly rising, and no entry equal to what an unlisted address reads as. -/
abbrev Memory.wf (m : Memory) : Prop :=
  m.Pairwise (fun x y => x.1 < y.1) ∧ ∀ c ∈ m, c.2 ≠ Memory.unlisted

/-- The byte at an address. "A read has no side effect and always returns the same byte for the same address" (R52). -/
def Memory.get : Memory → Nat → Byte
  | [], _ => Memory.unlisted
  | c :: m, a => if c.1 = a then c.2 else Memory.get m a

/-- Take an address out of the list. -/
def Memory.erase : Memory → Nat → Memory
  | [], _ => []
  | c :: m, a => if c.1 = a then m else c :: Memory.erase m a

/-- List a byte at its place in the rising order. -/
def Memory.insert : Memory → Nat → Byte → Memory
  | [], a, b => [(a, b)]
  | c :: m, a, b =>
    if a < c.1 then (a, b) :: c :: m
    else if a = c.1 then (a, b) :: m
    else c :: Memory.insert m a b

/-- Set one byte, keeping the canonical form. Only the loading of a configuration uses it: "there is no `MemWrite`" (R10). -/
def Memory.put (m : Memory) (a : Nat) (b : Byte) : Memory :=
  if b = Memory.unlisted then m.erase a else m.insert a b

/-- Set the bytes of a list at rising addresses from `a`. -/
def Memory.load (m : Memory) (a : Nat) : List Byte → Memory
  | [] => m
  | b :: bs => Memory.load (m.put a b) (a + 1) bs

end Sys2Proof
end

