-- ==== Sys2Proof/WellFormed.lean ====
section
/-! DEFINITION. What is well formed. An instruction has nothing to check: its operands are bit vectors of the widths the
opcode table gives, so every term of `Instr` is well formed. A configuration is checked as 00_scope.md R7 says. -/

namespace Sys2Proof

/-- The size of the frame store: "`(P + 1) · N` bytes at byte addresses `0 .. (P+1)·N − 1`" (20_memory.md R50). -/
def Config.storeSize (c : Config) : Nat := (c.numPatterns + 1) * c.frameLen

/-- R7: `N`, `P` and `D` are at least 1, and the frame store holds frames of `N` bytes only. `R` and `Y` are natural numbers,
so they are not negative. The store is in its canonical form. -/
abbrev Config.wf (c : Config) : Prop :=
  1 ≤ c.frameLen ∧ 1 ≤ c.numPatterns ∧ 1 ≤ c.bitUs ∧ c.store.wf ∧ ∀ x ∈ c.store, x.1 < c.storeSize

end Sys2Proof
end

