-- ==== Sys2Proof/Machine/State.lean ====
section
/-! DEFINITION. The state of the block (10_state.md R21-R23), what a tick can end in, and the state after reset
(70_reset_and_hazards.md R220). -/

namespace Sys2Proof.Machine

/-- `mode`: "what the block is doing" (R23). -/
inductive Mode where
  | ready
  | oneshot
  | run
  | halted
deriving DecidableEq, Repr

/-- `tx_phase`: "in a bit cell or in the trailing gap" (R23). -/
inductive TxPhase where
  | bit
  | gap
deriving DecidableEq, Repr

/-- `os_kind`: "the kind of a one-shot" (R23). -/
inductive OsKind where
  | idle
  | pattern
deriving DecidableEq, Repr

/-- `run_phase`: "where the scheduler loop is" (R23, R160). -/
inductive RunPhase where
  | idleTx
  | patternTx
  | yielding
deriving DecidableEq, Repr

/-- The complete record of R23, field for field. The widths of the counters and indices are those of their ranges (D30 of
92_eei_decisions.md: bounded naturals); the ranges are part of `StateOk` (Safety.lean). -/
structure Block where
  /-- `now_us`: ticks since reset was last released. -/
  nowUs         : Time
  /-- `line_q`: the level the block drives on the line. -/
  lineQ         : Level
  /-- `tx_active`: a transmission is in progress. -/
  txActive      : Bool
  /-- `tx_phase`. -/
  txPhase       : TxPhase
  /-- `tx_slot`, 0..P: slot of the frame being sent. -/
  txSlot        : Nat
  /-- `byte_idx`, 0..N-1: index of the current byte. -/
  byteIdx       : Nat
  /-- `bit_idx`, 0..7: index of the current bit within the byte, 0 = the MSB. -/
  bitIdx        : Nat
  /-- `work_byte`: the private working copy of the current byte; bit 7 is the next level to send. -/
  workByte      : Byte
  /-- `cnt`, 0..8·D: ticks elapsed in the current bit cell or gap, counting the start tick as 1. -/
  cnt           : Nat
  /-- `mode`. -/
  mode          : Mode
  /-- `os_kind`. -/
  osKind        : OsKind
  /-- `run_phase`. -/
  runPhase      : RunPhase
  /-- `yield_cnt`, 0..Y: ticks elapsed in the current yield, counting the start tick as 1. -/
  yieldCnt      : Nat
  /-- `rot_idx`, 0..P-1: the rotation index. -/
  rotIdx        : Nat
  /-- `last_pattern_ms`: the "last pattern send" timestamp in ms. -/
  lastPatternMs : Time
  /-- `fault`, sticky: a HardwareFault has occurred. -/
  fault         : Bool
  /-- `cmd_err`, sticky: an illegal command was accepted. -/
  cmdErr        : Bool
deriving DecidableEq, Repr

/-- The input ports sampled in one tick (R21). -/
structure Inputs where
  /-- `rst`: synchronous reset, active high. -/
  rst      : Bool
  /-- `cmd_valid`: a command is presented on `cmd`. -/
  cmdValid : Bool
  /-- `cmd`: the command word. -/
  cmd      : Byte
  /-- `pin_ready`: the output pin can be driven. -/
  pinReady : Bool
deriving DecidableEq, Repr

/-- "Inputs default to `rst = 0`, `pin_ready = 1` and `cmd_valid = 0`" (30_encoding.md R78). -/
def Inputs.quiet : Inputs := { rst := false, cmdValid := false, cmd := 0x00#8, pinReady := true }

/-- The block's record `blk`, the constants it runs under, its ports, the model's own counter of draws and its mark of a run that
starts from RESET. -/
structure State where
  /-- The parameters of R6, frame store included; no step changes them (log entry 1). -/
  cfg      : Config
  /-- `s_t`, the record of R23. -/
  blk      : Block
  /-- `in_t`, the input ports sampled during the tick the next step takes (R8, R21). -/
  ports    : Inputs
  /-- The inputs of the ticks after it, oldest first; past its end the inputs are quiet (log entry 5). -/
  feed     : List Inputs
  /-- The output port `tx_pad` as it was during the tick of the last step (R121, log entry 6). -/
  pad      : Level
  /-- The model's own counter: how many unspecified pad levels have been drawn (log entry 4). -/
  padDraws : Nat
  /-- The model's own mark of a run that starts from RESET: a reset tick has happened since power-on (R222, log entry 8). -/
  resetSeen : Bool
deriving DecidableEq, Repr

/-- Why a step stops with a fault. -/
inductive Fault where
  /-- Raised by `memRead` for an address outside the frame store: "For an address outside that range it is never called" (R50).
  Safe: no state that meets `StateOk` reaches it. -/
  | noSuchFrameByte
deriving DecidableEq, Repr

/-- Why a step gives no meaning. -/
inductive Refusal where
  /-- Raised by an arm of `exec` for a command that has no meaning yet. Safe; no arm raises it. -/
  | notModelled (mnemonic : String)
  /-- Raised by `step` under a configuration that breaks R7: "It gives such a configuration no meaning at all". Safe. -/
  | invalidConfig
  /-- Raised by `step` for a tick with `rst = 0` before the first reset: "A model starts from RESET and gives a run that starts
  anywhere else no meaning" (R222). Safe. -/
  | noResetYet
deriving DecidableEq, Repr

/-- The `pos` of `raise HardwareFault(pos)`: "`(s'.byte_idx, s'.bit_idx)` for a bit write, and `GAP` for the gap write"
(42_line_driver.md R120). -/
inductive FaultPos where
  | bitWrite (byteIdx bitIdx : Nat)
  | gapWrite
deriving DecidableEq, Repr

/-- What an action of part A or part B of a tick ends in (46_commands.md R188): the tick goes on with `s'`, or HardwareFault
was raised and fault entry taken, which "ends every remaining action of parts A and B" (R10), or the model stops. -/
inductive Act where
  | go     (s : State)
  | raised (pos : FaultPos) (s : State)
  | stop   (f : Fault)
deriving DecidableEq, Repr

/-- The record RESET of R220. -/
def Block.reset : Block :=
  { nowUs := 0#64, lineQ := .low, txActive := false, txPhase := .bit, txSlot := 0,
    byteIdx := 0, bitIdx := 0, workByte := 0x00#8, cnt := 0,
    mode := .ready, osKind := .idle, runPhase := .idleTx, yieldCnt := 0,
    rotIdx := 0, lastPatternMs := 0#64, fault := false, cmdErr := false }

/-- The machine right after reset under given parameters, with nothing presented on its ports. -/
def State.boot (cfg : Config) : State :=
  { cfg := cfg, blk := Block.reset, ports := Inputs.quiet, feed := [], pad := .low, padDraws := 0, resetSeen := true }

/-- The machine at power-on, with a record the caller names: "The state before the first reset is unspecified" (R222), so what is
said of it is said of every record. -/
def State.powerOn (cfg : Config) (blk : Block) : State := { State.boot cfg with blk := blk, resetSeen := false }

/-- The machine right after reset. -/
def State.reset : State := State.boot Config.initial

end Sys2Proof.Machine
end

