-- ==== Sys2Proof/Machine/Operands.lean ====
section
/-! DEFINITION. The implicit operands of the commands: "Commands have no operands and no immediates" (30_encoding.md R73), so
what a command acts on is a slot, a frame-store address, a level or a number of ticks computed here. -/

namespace Sys2Proof.Machine

/-- `GAP_BITS`: the trailing gap in bit durations, "8, fixed" (R6). -/
def gapBits : Nat := 8

/-- The ticks of the gap: "exactly `8·D`" (R105). -/
def gapTicks (c : Config) : Nat := gapBits * c.bitUs

/-- `L = (8·N + 8)·D`, the ticks of one transmission (R136, R233). -/
def txTicks (c : Config) : Nat := (8 * c.frameLen + gapBits) * c.bitUs

/-- "Byte `i` of slot `k`, for `0 ≤ i < N`, is at address `k · N + i`" (R51, R77). -/
def frameAddr (c : Config) (slot i : Nat) : Nat := slot * c.frameLen + i

/-- The frame of a slot, read from the store (R51). -/
def frameOf (c : Config) (slot : Nat) : List Byte :=
  (List.range c.frameLen).map fun i => c.store.get (frameAddr c slot i)

/-- `idleFrame() = slot 0` (R150). -/
def idleSlot : Nat := 0

/-- The slot of pattern `p` is `1 + p` (R51). -/
def patternSlot (p : Nat) : Nat := 1 + p

/-- "The frame `next()` returns is slot `1 + s.rot_idx`" (R151). -/
def nextSlot (b : Block) : Nat := patternSlot b.rotIdx

/-- The level a working byte sends next: `work_byte[7]` (R131). -/
def sendLevel (w : Byte) : Level := Level.ofBool (w.getLsbD 7)

/-- `(work_byte << 1) mod 256`: "Bit 7 is discarded and a 0 enters bit 0" (R9, R131). -/
def shiftByte (w : Byte) : Byte := w <<< 1

/-- The eight levels of one byte, most significant bit first (R55). -/
def byteLevels (b : Byte) : List Level :=
  [b.getLsbD 7, b.getLsbD 6, b.getLsbD 5, b.getLsbD 4, b.getLsbD 3, b.getLsbD 2, b.getLsbD 1, b.getLsbD 0].map Level.ofBool

/-- `encode(F) = Levels(F)`, byte 0 first (R74, R110). It is a function of the frame alone and holds no state (R112). -/
def levels (frame : List Byte) : List Level := frame.flatMap byteLevels

/-- The waveform of one transmission of a frame, `n` ticks after it started: bit cell `k` shows `Levels(F)[k]` and the gap is
LOW (R76). -/
def waveform (c : Config) (frame : List Byte) (n : Nat) : Level := (levels frame).getD (n / c.bitUs) .low

/-- "Last cell" means `s.bit_idx = 7` and `s.byte_idx = N − 1` (R188). -/
def lastCell (s : State) : Bool := s.blk.bitIdx = 7 && s.blk.byteIdx = s.cfg.frameLen - 1

end Sys2Proof.Machine
end

