-- ==== Sys2Proof/Machine/Ops.lean ====
section
/-! DEFINITION. The primitives of 00_scope.md R10: reading the frame store, taking HardwareFault (60_exceptions.md R201), the
line write (42_line_driver.md R120), the IllegalCommand event (46_commands.md R186) and reset (70_reset_and_hazards.md R220).
There is no return from HardwareFault: "HALTED is left only by reset" (R203). -/

namespace Sys2Proof.Machine

/-- What an action ends in, as an outcome: taking HardwareFault is a next state. -/
def Act.outcome : Act → Host.Outcome State Fault Refusal
  | .go s => .next s
  | .raised _ s => .next s
  | .stop f => .fault f

/-- Do one action and then another; "a `raise HardwareFault` … ends every remaining action" (R10). -/
def Act.andThen : Act → (State → Act) → Act
  | .go s, f => f s
  | .raised p s, _ => .raised p s
  | .stop e, _ => .stop e

/-- `MemRead(addr, 1)`: the byte at `addr`, for the addresses the frame store has (R50, log entry 11). -/
def memRead (c : Config) (addr : Nat) : Option Byte :=
  if addr < c.storeSize then some (c.store.get addr) else none

/-- FaultEntry of R201, on `s'` as it stands at the raise: "every other field keeps the value it has in s' at the raise". -/
def faultEntry (s : State) : State :=
  { s with blk := { s.blk with fault := true, mode := .halted, txActive := false, lineQ := .low } }

/-- `raise HardwareFault(pos)` (R10, R201). -/
def raiseHardwareFault (pos : FaultPos) (s : State) : Act := .raised pos (faultEntry s)

/-- `SetLevel(l)` (R120): HardwareFault "exactly when `pin_ready = 0` in the tick of the write", and otherwise the line takes
the level. -/
def setLevel (l : Level) (pos : FaultPos) (s : State) : Act :=
  if s.ports.pinReady then .go { s with blk := { s.blk with lineQ := l } } else raiseHardwareFault pos s

/-- The IllegalCommand event: `cmd_err` is set and "Nothing else changes" (R186). -/
def illegalCommand (s : State) : State := { s with blk := { s.blk with cmdErr := true } }

/-- Reset: "every field of 10_state.md rule R23 takes the reset value" (R220). The parameters are not state (R227).
The run it begins starts from RESET (R222). -/
def takeReset (s : State) : State := { s with blk := Block.reset, resetSeen := true }

/-- The position of the failing write that the frozen state names (R202). -/
def frozenPos (b : Block) : FaultPos :=
  match b.txPhase with
  | .bit => .bitWrite b.byteIdx b.bitIdx
  | .gap => .gapWrite

/-- `tx_pad` during the tick that ends in this state: `s_{t+1}.line_q` if `in_t.pin_ready = 1`, else any level, drawn afresh
(R121, log entry 4). -/
def latchPad (s : State) : State :=
  if s.ports.pinReady then { s with pad := s.blk.lineQ }
  else { s with pad := Config.freePad s.padDraws, padDraws := s.padDraws + 1 }

/-- The ports carry the inputs of the next tick. -/
def latchPorts (s : State) : State :=
  match s.feed with
  | [] => { s with ports := Inputs.quiet }
  | i :: rest => { s with ports := i, feed := rest }

end Sys2Proof.Machine
end

