-- ==== Sys2Proof/Machine/BitTimer.lean ====
section
/-! DEFINITION. The BitTimer (40_bit_timer.md R100-R106). Its busy-waits are the counters `cnt` and `yield_cnt`, advanced by the
FrameTransmitter and the scheduler. -/

namespace Sys2Proof.Machine

/-- `now_ms = s.now_us div 1000` (R102, log entry 12). -/
def nowMs (b : Block) : Time := b.nowUs / 1000#64

/-- Part C of the step: `s'.now_us <- (s.now_us + 1) mod 2^64` (R101, R188). -/
def advanceTime (s : State) : State := { s with blk := { s.blk with nowUs := s.blk.nowUs + 1#64 } }

end Sys2Proof.Machine
end

