-- ==== Sys2Proof/Machine/FrameTransmitter.lean ====
section
/-! DEFINITION. The FrameTransmitter and the hardware encoder (43_frame_transmitter.md R130-R135, 41_frame_encoder.md R111):
part A of the step. -/

namespace Sys2Proof.Machine

/-- The shift and the counter write of EmitBit, after its line write took effect (R131). -/
def bitSent (s : State) : State :=
  { s with blk := { s.blk with workByte := shiftByte s.blk.workByte, cnt := 1 } }

/-- `EmitBit()` (R131): the bit write of the cell the indices name. On HardwareFault "neither the shift nor the counter write
happens". -/
def emitBit (s : State) : Act :=
  (setLevel (sendLevel s.blk.workByte) (.bitWrite s.blk.byteIdx s.blk.bitIdx) s).andThen fun s' => .go (bitSent s')

/-- Load byte `byte_idx` of the frame being sent into the working byte (R111). -/
def loadByte (s : State) : Act :=
  match memRead s.cfg (frameAddr s.cfg s.blk.txSlot s.blk.byteIdx) with
  | some b => .go { s with blk := { s.blk with workByte := b } }
  | none => .stop .noSuchFrameByte

/-- `tx_start(slot)` (R130): "the first bit is written in the same tick the transmission starts". -/
def txStart (slot : Nat) (s : State) : Act :=
  (loadByte { s with blk := { s.blk with
    txActive := true, txSlot := slot, txPhase := .bit, byteIdx := 0, bitIdx := 0 } }).andThen emitBit

/-- Inside a bit cell, or inside the gap: one more tick of the wait has elapsed (R132, R135). -/
def countTick (s : State) : State := { s with blk := { s.blk with cnt := s.blk.cnt + 1 } }

/-- The next bit cell (R133). -/
def nextCell (s : State) : Act :=
  if s.blk.bitIdx < 7 then emitBit { s with blk := { s.blk with bitIdx := s.blk.bitIdx + 1 } }
  else (loadByte { s with blk := { s.blk with byteIdx := s.blk.byteIdx + 1, bitIdx := 0 } }).andThen emitBit

/-- The gap write (R134): `tx_phase` is "written first, so a failing gap write is recorded as such". -/
def gapWrite (s : State) : Act :=
  (setLevel .low .gapWrite { s with blk := { s.blk with txPhase := .gap } }).andThen fun s' =>
    .go { s' with blk := { s'.blk with cnt := 1 } }

/-- The gap has lasted `8·D` ticks: the condition of completion (R135). -/
def gapElapsed (s : State) : Bool := !decide (s.blk.cnt < gapTicks s.cfg)

/-- The gap and completion (R135). -/
def gapTick (s : State) : State :=
  if gapElapsed s then { s with blk := { s.blk with txActive := false } } else countTick s

/-- Part A: "the transmitter, if a transmission was in progress at the start of the tick" (R188). -/
def partA (s : State) : Act :=
  if s.blk.txActive then
    match s.blk.txPhase with
    | .bit =>
      if s.blk.cnt < s.cfg.bitUs then .go (countTick s)
      else if lastCell s then gapWrite s
      else nextCell s
    | .gap => .go (gapTick s)
  else .go s

/-- `done`: the transmission completes in part A of this tick (R135, R188). -/
def txDone (s : State) : Bool := s.blk.txActive && s.blk.txPhase = .gap && gapElapsed s

end Sys2Proof.Machine
end

