-- ==== Sys2Proof/Machine/PatternLibrary.lean ====
section
/-! DEFINITION. The PatternLibrary's rotation (44_pattern_library.md R150-R154). The selections `idleFrame()` and `next()` are
`idleSlot` and `nextSlot` of Operands.lean; they write nothing. -/

namespace Sys2Proof.Machine

/-- `s'.rot_idx <- (s.rot_idx + 1) mod P`, "only in the tick in which a pattern transmission *completes*" (R152). -/
def advanceRotation (s : State) : State :=
  { s with blk := { s.blk with rotIdx := (s.blk.rotIdx + 1) % s.cfg.numPatterns } }

end Sys2Proof.Machine
end

