-- ==== Sys2Proof/Machine/Scheduler.lean ====
section
/-! DEFINITION. The TransmissionScheduler (45_scheduler.md R160-R167): part B of a tick with `mode = RUN`. -/

namespace Sys2Proof.Machine

/-- Start the idle send of an iteration (R165, R166). -/
def startIdle (s : State) : Act := txStart idleSlot { s with blk := { s.blk with runPhase := .idleTx } }

/-- `StartYield()` (R165): "with `Y = 0` the idle frame follows the previous frame's gap back to back". -/
def startYield (s : State) : Act :=
  if s.cfg.yieldUs = 0 then startIdle s
  else .go { s with blk := { s.blk with runPhase := .yielding, yieldCnt := 1 } }

/-- The strict test of the rotation check: `(m - s.last_pattern_ms) mod 2^64 > R` (R162). -/
def rotationDue (s : State) : Bool := decide (s.cfg.rotMs < (nowMs s.blk - s.blk.lastPatternMs).toNat)

/-- `RotationCheck()` (R162), in the tick the idle send ends (R161). -/
def rotationCheck (s : State) : Act :=
  if rotationDue s then
    txStart (nextSlot s.blk) { s with blk := { s.blk with lastPatternMs := nowMs s.blk, runPhase := .patternTx } }
  else startYield s

/-- The end of the pattern send (R164). -/
def patternEnd (s : State) : Act := startYield (advanceRotation s)

/-- The yield (R166). -/
def yieldTick (s : State) : Act :=
  if s.blk.yieldCnt < s.cfg.yieldUs then .go { s with blk := { s.blk with yieldCnt := s.blk.yieldCnt + 1 } }
  else startIdle s

/-- Part B in RUN, by `run_phase` at the start of the tick (R188). -/
def runTick (phase : RunPhase) (done : Bool) (s : State) : Act :=
  match phase with
  | .idleTx => if done then rotationCheck s else .go s
  | .patternTx => if done then patternEnd s else .go s
  | .yielding => yieldTick s

end Sys2Proof.Machine
end

