-- ==== Sys2Proof/Machine/Commands.lean ====
section
/-! DEFINITION. The meanings of the commands (46_commands.md R182-R186) and the completion of a one-shot (R187): part B of a
tick with `mode = READY` or `mode = ONESHOT`. A meaning is what the accepted command does in part B; `step` adds part C, the
advance of `now_us`. -/

namespace Sys2Proof.Machine

/-- NOP: "nothing" (R182). -/
def execNop (s : State) : Host.Outcome State Fault Refusal := .next s

/-- RUN: enter the TransmissionScheduler loop with the first iteration's idle send (R183). -/
def execRun (s : State) : Host.Outcome State Fault Refusal :=
  (txStart idleSlot { s with blk := { s.blk with mode := .run, runPhase := .idleTx } }).outcome

/-- TX_IDLE: one transmission of the idle frame (R184). -/
def execTxIdle (s : State) : Host.Outcome State Fault Refusal :=
  (txStart idleSlot { s with blk := { s.blk with mode := .oneshot, osKind := .idle } }).outcome

/-- TX_NEXT: one transmission of `next()` (R185). -/
def execTxNext (s : State) : Host.Outcome State Fault Refusal :=
  (txStart (nextSlot s.blk) { s with blk := { s.blk with mode := .oneshot, osKind := .pattern } }).outcome

/-- RESERVED_OP4: IllegalCommand (R186). -/
def execReservedOp4 (_m : BitVec 4) (s : State) : Host.Outcome State Fault Refusal := .next (illegalCommand s)

/-- RESERVED_OP5: IllegalCommand (R186). -/
def execReservedOp5 (_m : BitVec 4) (s : State) : Host.Outcome State Fault Refusal := .next (illegalCommand s)

/-- RESERVED_OP6: IllegalCommand (R186). -/
def execReservedOp6 (_m : BitVec 4) (s : State) : Host.Outcome State Fault Refusal := .next (illegalCommand s)

/-- RESERVED_OP7: IllegalCommand (R186). -/
def execReservedOp7 (_m : BitVec 4) (s : State) : Host.Outcome State Fault Refusal := .next (illegalCommand s)

/-- RESERVED_OP8: IllegalCommand (R186). -/
def execReservedOp8 (_m : BitVec 4) (s : State) : Host.Outcome State Fault Refusal := .next (illegalCommand s)

/-- RESERVED_OP9: IllegalCommand (R186). -/
def execReservedOp9 (_m : BitVec 4) (s : State) : Host.Outcome State Fault Refusal := .next (illegalCommand s)

/-- RESERVED_OPA: IllegalCommand (R186). -/
def execReservedOpA (_m : BitVec 4) (s : State) : Host.Outcome State Fault Refusal := .next (illegalCommand s)

/-- RESERVED_OPB: IllegalCommand (R186). -/
def execReservedOpB (_m : BitVec 4) (s : State) : Host.Outcome State Fault Refusal := .next (illegalCommand s)

/-- RESERVED_OPC: IllegalCommand (R186). -/
def execReservedOpC (_m : BitVec 4) (s : State) : Host.Outcome State Fault Refusal := .next (illegalCommand s)

/-- RESERVED_OPD: IllegalCommand (R186). -/
def execReservedOpD (_m : BitVec 4) (s : State) : Host.Outcome State Fault Refusal := .next (illegalCommand s)

/-- RESERVED_OPE: IllegalCommand (R186). -/
def execReservedOpE (_m : BitVec 4) (s : State) : Host.Outcome State Fault Refusal := .next (illegalCommand s)

/-- RESERVED_OPF: IllegalCommand (R186). -/
def execReservedOpF (_m : BitVec 4) (s : State) : Host.Outcome State Fault Refusal := .next (illegalCommand s)

/-- RESERVED_MBZ_OP0_1xxx: IllegalCommand (R186). -/
def execReservedMbzOp0_1xxx (_m : BitVec 3) (s : State) : Host.Outcome State Fault Refusal := .next (illegalCommand s)

/-- RESERVED_MBZ_OP0_01xx: IllegalCommand (R186). -/
def execReservedMbzOp0_01xx (_m : BitVec 2) (s : State) : Host.Outcome State Fault Refusal := .next (illegalCommand s)

/-- RESERVED_MBZ_OP0_001x: IllegalCommand (R186). -/
def execReservedMbzOp0_001x (_m : BitVec 1) (s : State) : Host.Outcome State Fault Refusal := .next (illegalCommand s)

/-- RESERVED_MBZ_OP0_0001: IllegalCommand (R186). -/
def execReservedMbzOp0_0001 (s : State) : Host.Outcome State Fault Refusal := .next (illegalCommand s)

/-- RESERVED_MBZ_OP1_1xxx: IllegalCommand (R186). -/
def execReservedMbzOp1_1xxx (_m : BitVec 3) (s : State) : Host.Outcome State Fault Refusal := .next (illegalCommand s)

/-- RESERVED_MBZ_OP1_01xx: IllegalCommand (R186). -/
def execReservedMbzOp1_01xx (_m : BitVec 2) (s : State) : Host.Outcome State Fault Refusal := .next (illegalCommand s)

/-- RESERVED_MBZ_OP1_001x: IllegalCommand (R186). -/
def execReservedMbzOp1_001x (_m : BitVec 1) (s : State) : Host.Outcome State Fault Refusal := .next (illegalCommand s)

/-- RESERVED_MBZ_OP1_0001: IllegalCommand (R186). -/
def execReservedMbzOp1_0001 (s : State) : Host.Outcome State Fault Refusal := .next (illegalCommand s)

/-- RESERVED_MBZ_OP2_1xxx: IllegalCommand (R186). -/
def execReservedMbzOp2_1xxx (_m : BitVec 3) (s : State) : Host.Outcome State Fault Refusal := .next (illegalCommand s)

/-- RESERVED_MBZ_OP2_01xx: IllegalCommand (R186). -/
def execReservedMbzOp2_01xx (_m : BitVec 2) (s : State) : Host.Outcome State Fault Refusal := .next (illegalCommand s)

/-- RESERVED_MBZ_OP2_001x: IllegalCommand (R186). -/
def execReservedMbzOp2_001x (_m : BitVec 1) (s : State) : Host.Outcome State Fault Refusal := .next (illegalCommand s)

/-- RESERVED_MBZ_OP2_0001: IllegalCommand (R186). -/
def execReservedMbzOp2_0001 (s : State) : Host.Outcome State Fault Refusal := .next (illegalCommand s)

/-- RESERVED_MBZ_OP3_1xxx: IllegalCommand (R186). -/
def execReservedMbzOp3_1xxx (_m : BitVec 3) (s : State) : Host.Outcome State Fault Refusal := .next (illegalCommand s)

/-- RESERVED_MBZ_OP3_01xx: IllegalCommand (R186). -/
def execReservedMbzOp3_01xx (_m : BitVec 2) (s : State) : Host.Outcome State Fault Refusal := .next (illegalCommand s)

/-- RESERVED_MBZ_OP3_001x: IllegalCommand (R186). -/
def execReservedMbzOp3_001x (_m : BitVec 1) (s : State) : Host.Outcome State Fault Refusal := .next (illegalCommand s)

/-- RESERVED_MBZ_OP3_0001: IllegalCommand (R186). -/
def execReservedMbzOp3_0001 (s : State) : Host.Outcome State Fault Refusal := .next (illegalCommand s)

/-- One-shot completion (R187). -/
def oneshotEnd (s : State) : State :=
  let s' := match s.blk.osKind with
    | .pattern => advanceRotation s
    | .idle => s
  { s' with blk := { s'.blk with mode := .ready } }

end Sys2Proof.Machine
end

