-- ==== Sys2Proof/Machine/Dispatch.lean ====
section
/-! DEFINITION. The dispatch of an accepted command to its meaning (46_commands.md R181). -/

namespace Sys2Proof.Machine

def exec (i : Instr) (s : State) : Host.Outcome State Fault Refusal :=
  match i with
  | .nop => Sys2Proof.Machine.execNop s
  | .run => Sys2Proof.Machine.execRun s
  | .txIdle => Sys2Proof.Machine.execTxIdle s
  | .txNext => Sys2Proof.Machine.execTxNext s
  | .reservedOp4 m => Sys2Proof.Machine.execReservedOp4 m s
  | .reservedOp5 m => Sys2Proof.Machine.execReservedOp5 m s
  | .reservedOp6 m => Sys2Proof.Machine.execReservedOp6 m s
  | .reservedOp7 m => Sys2Proof.Machine.execReservedOp7 m s
  | .reservedOp8 m => Sys2Proof.Machine.execReservedOp8 m s
  | .reservedOp9 m => Sys2Proof.Machine.execReservedOp9 m s
  | .reservedOpA m => Sys2Proof.Machine.execReservedOpA m s
  | .reservedOpB m => Sys2Proof.Machine.execReservedOpB m s
  | .reservedOpC m => Sys2Proof.Machine.execReservedOpC m s
  | .reservedOpD m => Sys2Proof.Machine.execReservedOpD m s
  | .reservedOpE m => Sys2Proof.Machine.execReservedOpE m s
  | .reservedOpF m => Sys2Proof.Machine.execReservedOpF m s
  | .reservedMbzOp0_1xxx m => Sys2Proof.Machine.execReservedMbzOp0_1xxx m s
  | .reservedMbzOp0_01xx m => Sys2Proof.Machine.execReservedMbzOp0_01xx m s
  | .reservedMbzOp0_001x m => Sys2Proof.Machine.execReservedMbzOp0_001x m s
  | .reservedMbzOp0_0001 => Sys2Proof.Machine.execReservedMbzOp0_0001 s
  | .reservedMbzOp1_1xxx m => Sys2Proof.Machine.execReservedMbzOp1_1xxx m s
  | .reservedMbzOp1_01xx m => Sys2Proof.Machine.execReservedMbzOp1_01xx m s
  | .reservedMbzOp1_001x m => Sys2Proof.Machine.execReservedMbzOp1_001x m s
  | .reservedMbzOp1_0001 => Sys2Proof.Machine.execReservedMbzOp1_0001 s
  | .reservedMbzOp2_1xxx m => Sys2Proof.Machine.execReservedMbzOp2_1xxx m s
  | .reservedMbzOp2_01xx m => Sys2Proof.Machine.execReservedMbzOp2_01xx m s
  | .reservedMbzOp2_001x m => Sys2Proof.Machine.execReservedMbzOp2_001x m s
  | .reservedMbzOp2_0001 => Sys2Proof.Machine.execReservedMbzOp2_0001 s
  | .reservedMbzOp3_1xxx m => Sys2Proof.Machine.execReservedMbzOp3_1xxx m s
  | .reservedMbzOp3_01xx m => Sys2Proof.Machine.execReservedMbzOp3_01xx m s
  | .reservedMbzOp3_001x m => Sys2Proof.Machine.execReservedMbzOp3_001x m s
  | .reservedMbzOp3_0001 => Sys2Proof.Machine.execReservedMbzOp3_0001 s

end Sys2Proof.Machine
end

