-- ==== Sys2Proof/Machine/Tick.lean ====
section
/-! DEFINITION. The step of one tick (46_commands.md R188): "This is the whole behaviour of the block." -/

namespace Sys2Proof.Machine

/-- The handshake of R180: the word accepted in this tick. -/
def accepted (s : State) : Option Byte :=
  if !s.ports.rst && s.ports.cmdValid && s.blk.mode = .ready then some s.ports.cmd else none

/-- Part B: "the controller, by the mode at the start of the tick" `s`, on the state `s'` part A left (R188). -/
def partB (s s' : State) : Host.Outcome State Fault Refusal :=
  match s.blk.mode with
  | .ready =>
    match accepted s with
    | some w => exec (decode w) s'
    | none => .next s'
  | .oneshot => .next (if txDone s then oneshotEnd s' else s')
  | .run => (runTick s.blk.runPhase (txDone s) s').outcome
  | .halted => .next s'

/-- The end of every tick: the pad has its level (R121), and the ports carry the next inputs. -/
def closeTick (s : State) : State := latchPorts (latchPad s)

/-- Part C "in every non-reset tick" (R188), then the end of the tick. -/
def closeTickC (s : State) : State := closeTick (advanceTime s)

/-- What a tick makes of the outcome of part B: its next state is closed. -/
def closeOutcome : Host.Outcome State Fault Refusal → Host.Outcome State Fault Refusal
  | .next s => .next (closeTickC s)
  | .fault f => .fault f
  | .refused r => .refused r

/-- One tick. "Part B is skipped as a whole if part A raised", and "Part C still happens" (R188). -/
def tick (s : State) : Host.Outcome State Fault Refusal :=
  if s.ports.rst then .next (closeTick (takeReset s))
  else
    match partA s with
    | .stop f => .fault f
    | .raised _ s' => .next (closeTickC s')
    | .go s' => closeOutcome (partB s s')

/-- One tick under a configuration R7 allows; "a model rejects any configuration that breaks the ranges" (R7). At
power-on "the host must hold `rst = 1` for at least one tick before any other input counts", and a run that starts otherwise has
no meaning (R222, log entry 8). -/
def guardedTick (s : State) : Host.Outcome State Fault Refusal :=
  if s.cfg.wf then
    if s.resetSeen || s.ports.rst then tick s else .refused .noResetYet
  else .refused .invalidConfig

/-- Where a command is fetched from: the command port, with the block READY and no reset (R180). A block that is not READY,
or not reset yet, takes reset first, the only way every mode has back to READY (R220, R222, log entry 7). `pin_ready` is left as it
is. -/
def presentWord (s : State) (w : Byte) : State :=
  let s' := if s.resetSeen ∧ s.blk.mode = .ready then s else takeReset s
  { s' with ports := { s'.ports with rst := false, cmdValid := true, cmd := w } }

end Sys2Proof.Machine
end

