-- ==== Sys2Proof/Machine/Step.lean ====
section
/-! DEFINITION. The step function and the placing of a command where it fetches. -/

namespace Sys2Proof.Machine

/-- `s_{t+1} = step(s_t, in_t)` (00_scope.md R8), with `in_t` in `s.ports`. -/
def step (s : State) : Host.Outcome State Fault Refusal := guardedTick s

/-- The word `w` of `nbits` bits presented on the command port, so that the next step accepts it (log entry 7). -/
def State.withFetchWord (s : State) (nbits w : Nat) : State :=
  presentWord s (BitVec.ofNat 8 (w % 2 ^ nbits))

end Sys2Proof.Machine
end

