-- ==== Sys2Proof/Machine/Flags.lean ====
section
/-! DEFINITION. STATUS, its flags, the output ports (10_state.md R22, R24, R25) and the events (60_exceptions.md R200). -/

namespace Sys2Proof.Machine

/-- The MODE field's code (R24). -/
def modeCode : Mode → BitVec 2
  | .ready => 0#2
  | .oneshot => 1#2
  | .run => 2#2
  | .halted => 3#2

/-- FRAME_KIND: "1 iff `s.tx_slot ≠ 0`" (R24). -/
def frameKind (b : Block) : Bool := b.txSlot ≠ 0

/-- TX_PHASE: "0 BIT, 1 GAP" (R24). -/
def phaseBit (b : Block) : Bool := b.txPhase = .gap

/-- YIELDING: "1 iff `s.mode = RUN` and `s.run_phase = YIELD`" (R24). -/
def isYielding (b : Block) : Bool := b.mode = .run && b.runPhase = .yielding

/-- The STATUS word, reserved bits 15:9 first (R24). -/
def status (b : Block) : BitVec 16 :=
  0#7 ++ BitVec.ofBool (isYielding b) ++ BitVec.ofBool (phaseBit b) ++ BitVec.ofBool (frameKind b) ++ modeCode b.mode
    ++ BitVec.ofBool b.cmdErr ++ BitVec.ofBool b.fault ++ BitVec.ofBool b.lineQ.toBool ++ BitVec.ofBool b.txActive

/-- `cmd_ready`: "`1` iff `s.mode = READY`" (R22). -/
def cmdReady (b : Block) : Bool := b.mode = .ready

/-- The width of `rot_idx_o`: "`ceil(log2 P)`, at least 1" (R22). -/
def rotWidth (c : Config) : Nat := Nat.log2 (c.numPatterns - 1) + 1

/-- `rot_idx_o` (R22). -/
def rotIdxO (s : State) : BitVec (rotWidth s.cfg) := BitVec.ofNat _ s.blk.rotIdx

/-- The two events of R200 and "none". -/
inductive Event where
  | none
  | hardwareFault
  | illegalCommand
deriving DecidableEq, Repr

/-- "The code of each is the spec's number for it" (R200). -/
def eventCode : Event → Nat
  | .none => 0
  | .hardwareFault => 1
  | .illegalCommand => 2

/-- Whether the event halts the block (R200). -/
def eventFatal : Event → Bool
  | .hardwareFault => true
  | .none | .illegalCommand => false

/-- An accepted word that is illegal (R181). -/
def illegalAccepted (s : State) : Bool :=
  match accepted s with
  | some w => !(decode w).isLegal
  | none => false

/-- The event raised in the tick from `s` to `t`: HardwareFault takes FAULT from 0 to 1, and IllegalCommand is the accepting of
an illegal word (R200, R206). -/
def eventOf (s t : State) : Event :=
  if illegalAccepted s then .illegalCommand
  else if t.blk.fault && !s.blk.fault then .hardwareFault
  else .none

end Sys2Proof.Machine
end

