-- ==== Sys2Proof/Machine/Script.lean ====
section
/-! DEFINITION. The host scripts of 30_encoding.md R78 and the assembler and disassembler of R79: "a text program that drives the
input ports of a block started from reset". -/

namespace Sys2Proof.Machine

/-! ### Assembling one command (R79) -/

/-- The digits of a numeral, each at its own value. -/
def digits : List Char := "0123456789ABCDEF".toList

/-- The value of a digit of a numeral to a base, letters in either case (log entry 9). -/
def digitValue? (base : Nat) (c : Char) : Option Nat := (digits.take base).findIdx? (· == c.toUpper)

/-- The number a numeral to a base stands for; none if a character is no digit, or if there is none. -/
def numeral? (base : Nat) (cs : List Char) : Option Nat :=
  if cs = [] then none
  else cs.foldlM (fun n c => (digitValue? base c).map (base * n + ·)) 0

/-- `byte := '0x' two hexadecimal digits` (R78). -/
def byte? : List Char → Option Byte
  | ['0', 'x', h, l] => (numeral? 16 [h, l]).map (BitVec.ofNat 8)
  | _ => none

/-- The digit of a value below 16, as the spec writes words (`0x1F`). -/
def hexChar (n : Nat) : Char := digits.getD n '0'

/-- A word as `0xNN`. -/
def byteText (w : Byte) : List Char := ['0', 'x', hexChar (w.toNat / 16), hexChar (w.toNat % 16)]

/-- "The mnemonics NOP, RUN, TX_IDLE and TX_NEXT assemble to 0x00, 0x10, 0x20 and 0x30" and "`.cmd 0xNN` assembles to the byte
0xNN unchanged" (R79). The words of a command's text, spaces taken out. -/
def assemble? : List (List Char) → Option Byte
  | [m] =>
    if m = "NOP".toList then some (encode .nop)
    else if m = "RUN".toList then some (encode .run)
    else if m = "TX_IDLE".toList then some (encode .txIdle)
    else if m = "TX_NEXT".toList then some (encode .txNext)
    else none
  | [m, b] => if m = ".cmd".toList then byte? b else none
  | _ => none

/-- "A disassembler prints a legal word by its mnemonic and any other word as `.cmd 0xNN`" (R79). -/
def disassemble (w : Byte) : List (List Char) :=
  if (decode w).isLegal then [(tableRow (decode w)).mnemonic.toList] else [".cmd".toList, byteText w]

/-! ### Scripts and their text (R78) -/

/-- `action := 'RST' bit | 'PIN' bit | 'CMD' command`, the command assembled. -/
inductive ScriptAction where
  | rst (b : Bool)
  | pin (b : Bool)
  | cmd (w : Byte)
deriving DecidableEq, Repr

/-- A line of a script: `@t: action`, or `END t`. -/
inductive ScriptLine where
  | act  (t : Nat) (a : ScriptAction)
  | stop (t : Nat)
deriving DecidableEq, Repr

/-- `script := line*`. -/
abbrev Script := List ScriptLine

/-- The text before a comment. -/
def dropComment : List Char → List Char
  | [] => []
  | c :: cs => if c = ';' then [] else c :: dropComment cs

/-- The tokens of a line: `@` and `:` stand alone, spaces separate the rest. `cur` is the token being read, reversed. -/
def tokens (cur : List Char) : List Char → List (List Char)
  | [] => if cur = [] then [] else [cur.reverse]
  | c :: cs =>
    let before := if cur = [] then [] else [cur.reverse]
    if c = ' ' then before ++ tokens [] cs
    else if c = '@' ∨ c = ':' then before ++ [c] :: tokens [] cs
    else tokens (c :: cur) cs

/-- `tick := decimal integer ≥ 0`. -/
def tick? (cs : List Char) : Option Nat := numeral? 10 cs

/-- `bit := '0' | '1'`. -/
def bit? : List (List Char) → Option Bool
  | [['0']] => some false
  | [['1']] => some true
  | _ => none

/-- `action`. -/
def action? : List (List Char) → Option ScriptAction
  | k :: rest =>
    if k = "RST".toList then (bit? rest).map .rst
    else if k = "PIN".toList then (bit? rest).map .pin
    else if k = "CMD".toList then (assemble? rest).map .cmd
    else none
  | [] => none

/-- `line`, of its tokens. -/
def line? : List (List Char) → Option ScriptLine
  | ['@'] :: t :: [':'] :: rest =>
    match tick? t, action? rest with
    | some n, some a => some (.act n a)
    | _, _ => none
  | [k, t] => if k = "END".toList then (tick? t).map .stop else none
  | _ => none

/-- The lines of a text. `cur` is the line being read, reversed. -/
def textLines (cur : List Char) : List Char → List (List Char)
  | [] => [cur.reverse]
  | c :: cs => if c = '\n' then cur.reverse :: textLines [] cs else textLines (c :: cur) cs

/-- A script of its lines; a line with no token is passed over (log entry 9). -/
def script? : List (List Char) → Option Script
  | [] => some []
  | l :: ls =>
    match tokens [] (dropComment l) with
    | [] => script? ls
    | ts =>
      match line? ts, script? ls with
      | some a, some rest => some (a :: rest)
      | _, _ => none

/-- Read a host script; none for a text that breaks the grammar. -/
def parseScript (text : String) : Option Script := script? (textLines [] text.toList)

/-! ### Running a script (R78) -/

/-- A script's run: the tick that comes next, the commands not yet accepted, in script order, and the block. -/
structure ScriptRun where
  script : Script
  tick   : Nat
  queue  : List (Nat × Byte)
  state  : State
deriving DecidableEq, Repr

/-- "`@t: CMD c` queues command `c`" with the first tick it may be presented in. -/
def scriptQueue (sc : Script) : List (Nat × Byte) :=
  sc.filterMap fun l => match l with
    | .act t (.cmd w) => some (t, w)
    | _ => none

/-- The level of an input in tick `now`: "`@t: RST b` and `@t: PIN b` set `rst` or `pin_ready` to `b` from tick `t` onward". Of
the settings at or before `now` the one of the latest tick holds, and of two in one tick the later line (log entry 9). -/
def levelIn (sc : Script) (now : Nat) (set? : ScriptAction → Option Bool) (start : Bool) : Bool :=
  (sc.foldl (fun (best : Nat × Bool) l => match l with
    | .act t a => match set? a with
      | some b => if best.1 ≤ t ∧ t ≤ now then (t, b) else best
      | none => best
    | .stop _ => best) (0, start)).2

/-- What `RST` sets. -/
def rstSet? : ScriptAction → Option Bool
  | .rst b => some b
  | .pin _ | .cmd _ => none

/-- What `PIN` sets. -/
def pinSet? : ScriptAction → Option Bool
  | .pin b => some b
  | .rst _ | .cmd _ => none

/-- The command presented in this tick: the first of the queue, from its tick on. -/
def presented (r : ScriptRun) : Option Byte :=
  match r.queue with
  | (t, w) :: _ => if t ≤ r.tick then some w else none
  | [] => none

/-- The input ports of this tick. -/
def scriptPorts (r : ScriptRun) : Inputs :=
  { rst := levelIn r.script r.tick rstSet? false
    pinReady := levelIn r.script r.tick pinSet? true
    cmdValid := (presented r).isSome
    cmd := (presented r).getD 0x00#8 }

/-- The state with this tick's ports on it. -/
def scriptState (r : ScriptRun) : State := { r.state with ports := scriptPorts r }

/-- One tick of a script's run. An accepted command leaves the queue, and the next "is presented … from the tick after". -/
def scriptStep (r : ScriptRun) : Host.Outcome ScriptRun Fault Refusal :=
  match step (scriptState r) with
  | .next s' =>
    .next { r with
      tick := r.tick + 1
      queue := if (accepted (scriptState r)).isSome then r.queue.drop 1 else r.queue
      state := s' }
  | .fault f => .fault f
  | .refused e => .refused e

/-- A script's run before tick 0: "The block starts in the reset state `s_0`". -/
def scriptStart (cfg : Config) (sc : Script) : ScriptRun :=
  { script := sc, tick := 0, queue := scriptQueue sc, state := State.boot cfg }

/-- `n` ticks of a script's run. -/
def scriptTicks : Nat → ScriptRun → Host.Outcome ScriptRun Fault Refusal
  | 0, r => .next r
  | n + 1, r =>
    match scriptStep r with
    | .next r' => scriptTicks n r'
    | .fault f => .fault f
    | .refused e => .refused e

/-- "`END t` names the state `s_t`": the tick the script ends at. The grammar allows several `END` lines and lines after one;
DESIGN CHOICE (log entry 9): the first names the end state, and an action line acts wherever it stands. -/
def scriptEnd? (sc : Script) : Option Nat :=
  sc.findSome? fun l => match l with
    | .stop t => some t
    | .act _ _ => none

end Sys2Proof.Machine
end

