-- ==== Sys2Proof/Machine/FrameStore.lean ====
section
/-! DEFINITION. The making of a configuration from its parameters (00_scope.md R6, R7) and of a block that boots under it
(70_reset_and_hazards.md R224 step 1: "The frame store and the parameters … are fixed before this and never change"). -/

namespace Sys2Proof

/-- R7's ranges: `N`, `P` and `D` at least 1, no negative `R` or `Y`, `P` pattern frames, and every frame `N` bytes long. -/
abbrev paramsOk (n p d : Nat) (r y : Int) (idle : List Byte) (pats : List (List Byte)) : Prop :=
  1 ≤ n ∧ 1 ≤ p ∧ 1 ≤ d ∧ 0 ≤ r ∧ 0 ≤ y ∧ idle.length = n ∧ pats.length = p ∧ ∀ f ∈ pats, f.length = n

/-- The configuration with these parameters, the idle frame in slot 0 and pattern `p` in slot `1 + p` (R51); none for
parameters that R7 rejects. -/
def Config.ofParams (n p d : Nat) (r y : Int) (idle : List Byte) (pats : List (List Byte)) : Option Config :=
  if paramsOk n p d r y idle pats then
    some { frameLen := n, numPatterns := p, bitUs := d, rotMs := r.toNat, yieldUs := y.toNat,
           store := Memory.load [] 0 (idle ++ pats.flatten) }
  else none

end Sys2Proof
end

