-- ==== Sys2Proof/Safety.lean ====
section
/-! DEFINITION. The terms the statements use: the invariants of 10_state.md R23 and R26, the record a transmission starts with,
the ticks that write the line, and runs of ticks with their inputs. -/

namespace Sys2Proof.Machine

/-! ### Invariants -/

/-- The ranges of R23's table and the invariants of R26, under a configuration R7 allows, in a run that starts from RESET. -/
structure StateOk (s : State) : Prop where
  wasReset : s.resetSeen = true
  cfgWf : s.cfg.wf
  slotRange : s.blk.txSlot ≤ s.cfg.numPatterns
  byteRange : s.blk.byteIdx < s.cfg.frameLen
  bitRange : s.blk.bitIdx < 8
  cntRange : s.blk.cnt ≤ gapTicks s.cfg
  yieldRange : s.blk.yieldCnt ≤ s.cfg.yieldUs
  rotRange : s.blk.rotIdx < s.cfg.numPatterns
  stillIdle : s.blk.mode = .ready ∨ s.blk.mode = .halted → s.blk.txActive = false
  oneshotBusy : s.blk.mode = .oneshot → s.blk.txActive = true
  runBusy : s.blk.mode = .run → (s.blk.txActive = true ↔ s.blk.runPhase ≠ .yielding)
  bitCnt : s.blk.txActive = true → s.blk.txPhase = .bit → 1 ≤ s.blk.cnt ∧ s.blk.cnt ≤ s.cfg.bitUs
  gapCnt : s.blk.txActive = true → s.blk.txPhase = .gap → 1 ≤ s.blk.cnt ∧ s.blk.cnt ≤ gapTicks s.cfg
  yieldCnt : s.blk.mode = .run → s.blk.runPhase = .yielding → 1 ≤ s.blk.yieldCnt ∧ s.blk.yieldCnt ≤ s.cfg.yieldUs
  faultHalted : s.blk.fault = true ↔ s.blk.mode = .halted
  lineLow : s.blk.txActive = false ∨ s.blk.txPhase = .gap → s.blk.lineQ = .low

/-- The byte of the frame being sent that the indices name. -/
def currentByte (s : State) : Byte := s.cfg.store.get (frameAddr s.cfg s.blk.txSlot s.blk.byteIdx)

/-- The hardware encoder agrees with `encode` (41_frame_encoder.md R111). In a bit cell the line shows the level `Levels(F)` has
for it, HIGH for a 1 bit and LOW for a 0 bit, and the working byte is the current byte with the bits sent shifted out. After a
failed bit write `work_byte[7]` is the level that was not written (60_exceptions.md R202). -/
structure EncoderAgrees (s : State) : Prop where
  lineShows : s.blk.txActive = true → s.blk.txPhase = .bit →
    (levels (frameOf s.cfg s.blk.txSlot))[8 * s.blk.byteIdx + s.blk.bitIdx]? = some s.blk.lineQ
  lineBit : s.blk.txActive = true → s.blk.txPhase = .bit →
    s.blk.lineQ = if (currentByte s).getLsbD (7 - s.blk.bitIdx) then .high else .low
  workShifted : s.blk.txActive = true → s.blk.txPhase = .bit →
    s.blk.workByte = currentByte s <<< (s.blk.bitIdx + 1)
  workKept : s.blk.fault = true → s.blk.txPhase = .bit →
    s.blk.workByte = currentByte s <<< s.blk.bitIdx

/-- The frame being sent is the one 30_encoding.md R73 gives each kind of send: slot 0 for TX_IDLE and RUN's idle sends, and
slot `1 + rot_idx` for TX_NEXT and RUN's pattern sends. -/
structure SlotAgrees (s : State) : Prop where
  oneshotIdle : s.blk.mode = .oneshot → s.blk.osKind = .idle → s.blk.txSlot = 0
  oneshotPattern : s.blk.mode = .oneshot → s.blk.osKind = .pattern → s.blk.txSlot = 1 + s.blk.rotIdx
  runIdle : s.blk.mode = .run → s.blk.runPhase = .idleTx → s.blk.txSlot = 0
  runPattern : s.blk.mode = .run → s.blk.runPhase = .patternTx → s.blk.txSlot = 1 + s.blk.rotIdx

/-! ### Starting a transmission -/

/-- The first byte of a slot's frame, the one `tx_start` loads (43_frame_transmitter.md R130). -/
def firstByte (c : Config) (slot : Nat) : Byte := c.store.get (frameAddr c slot 0)

/-- The record after `tx_start(slot)` with its bit write of cell 0 (R130, R131). -/
def startedBlock (c : Config) (slot : Nat) (b : Block) : Block :=
  { b with
    txActive := true, txSlot := slot, txPhase := .bit, byteIdx := 0, bitIdx := 0,
    lineQ := if (firstByte c slot).getLsbD 7 then .high else .low, workByte := shiftByte (firstByte c slot), cnt := 1 }

/-- The record after `tx_start(slot)` when its bit write of cell 0 raised HardwareFault (R130, R131, R201). -/
def failedStartBlock (c : Config) (slot : Nat) (b : Block) : Block :=
  { b with
    txActive := false, txSlot := slot, txPhase := .bit, byteIdx := 0, bitIdx := 0,
    workByte := firstByte c slot, lineQ := .low, fault := true, mode := .halted }

/-! ### Ticks that write the line -/

/-- The commands that start a transmission (46_commands.md R183-R185). -/
def startsTransmission (i : Instr) : Bool := i.isLegal && i ≠ .nop

/-- The ticks of 70_reset_and_hazards.md R228: the first tick of a bit cell, the gap write, and the tick of a command or a
scheduler action that starts a transmission. -/
def writesLine (s : State) : Bool :=
  (s.blk.txActive && s.blk.txPhase = .bit && !decide (s.blk.cnt < s.cfg.bitUs))
  || (match accepted s with
      | some w => startsTransmission (decode w)
      | none => false)
  || (s.blk.mode = .run &&
      match s.blk.runPhase with
      | .idleTx => txDone s && (rotationDue s || s.cfg.yieldUs = 0)
      | .patternTx => txDone s && s.cfg.yieldUs = 0
      | .yielding => !decide (s.blk.yieldCnt < s.cfg.yieldUs))

/-- The tick of the gap write (43_frame_transmitter.md R134). -/
def writesGap (s : State) : Bool :=
  s.blk.txActive && s.blk.txPhase = .bit && !decide (s.blk.cnt < s.cfg.bitUs) && lastCell s

/-- A tick of a bit write: any other tick that writes the line (42_line_driver.md R120: "Nothing else calls it"). -/
def writesBit (s : State) : Bool := writesLine s && !writesGap s

/-! ### Runs -/

/-- `n` steps from a state, the host's `run` of this machine. -/
def steps (n : Nat) (s : State) : Host.Outcome State Fault Refusal := Host.Core.run Sys2Proof.core n s

/-- How many of the next `n` ticks `p` holds of, each asked of the state it starts from. -/
def countTicks (p : State → Bool) : Nat → State → Nat
  | 0, _ => 0
  | n + 1, s =>
    (if p s then 1 else 0) +
      match step s with
      | .next t => countTicks p n t
      | .fault _ => 0
      | .refused _ => 0

/-- The ticks in which a pattern transmission completes, in RUN or as a one-shot (44_pattern_library.md R152). -/
def completesPattern (s : State) : Bool :=
  !s.ports.rst && txDone s &&
    ((s.blk.mode = .oneshot && s.blk.osKind = .pattern) || (s.blk.mode = .run && s.blk.runPhase = .patternTx))

/-- The inputs of the tick `k` ticks after the one that comes next. -/
def inputsAt (s : State) (k : Nat) : Inputs := (s.ports :: s.feed).getD k Inputs.quiet

/-- No reset tick among the next `n` ticks. -/
abbrev noReset (s : State) (n : Nat) : Prop := ∀ k < n, (inputsAt s k).rst = false

/-- `pin_ready = 1` throughout the next `n` ticks, and no reset among them. -/
abbrev pinHeld (s : State) (n : Nat) : Prop :=
  ∀ k < n, (inputsAt s k).rst = false ∧ (inputsAt s k).pinReady = true

/-- A transmission has made its first bit write in the tick just ended (R130, R131). -/
abbrev justStarted (s : State) : Prop :=
  s.blk.txActive = true ∧ s.blk.txPhase = .bit ∧ s.blk.byteIdx = 0 ∧ s.blk.bitIdx = 0 ∧ s.blk.cnt = 1

end Sys2Proof.Machine
end

