-- ==== Sys2Proof/Certificates/Slice0/Obligations.lean ====
section
/-! DEFINITION. The statements, each from numbered rules of spec/. `steps`, `pinHeld`, `writesLine`, `startedBlock` and the
invariants are those of Safety.lean. A level is spelled out: HIGH for a 1 bit and LOW for a 0 bit (30_encoding.md R75). -/

open Sys2Proof Sys2Proof.Machine

/-! ### Encodings -/

/-- Decoding an encoded instruction gives it back, with every operand at every value, and encoding a decoded word gives the word
back: no bit of a word is dropped and no two rows overlap (30_encoding.md R70-R72). -/
def Obligations.DecodeEncodeInverse : Prop :=
  (∀ i : Instr, decode (encode i) = i) ∧ ∀ w : Byte, encode (decode w) = w

/-- 46_commands.md R181: an accepted word is dispatched on bits 7:4 when bits 3:0 are zero and `OP ≤ 3`, and any other word is
illegal, with the effect of R186 (`cmd_err` alone is set). -/
def Obligations.DecodingDispatchesOnOp : Prop :=
  ∀ (w : Byte) (s : State),
    let op := w.extractLsb' 4 4
    let mbz := w.extractLsb' 0 4
    ((decode w).isLegal = true ↔ mbz = 0#4 ∧ op.toNat ≤ 3) ∧
    (mbz = 0#4 → op = 0#4 → exec (decode w) s = exec .nop s) ∧
    (mbz = 0#4 → op = 1#4 → exec (decode w) s = exec .run s) ∧
    (mbz = 0#4 → op = 2#4 → exec (decode w) s = exec .txIdle s) ∧
    (mbz = 0#4 → op = 3#4 → exec (decode w) s = exec .txNext s) ∧
    (¬(mbz = 0#4 ∧ op.toNat ≤ 3) → exec (decode w) s = .next { s with blk := { s.blk with cmdErr := true } })

/-- The words of 30_encoding.md R71 and the illegal words of 95_test_vectors.md K5-K8. -/
def Obligations.WordsDecodeAsTheTableSays : Prop :=
  decode 0b00000000#8 = .nop ∧ decode 0b00010000#8 = .run ∧ decode 0b00100000#8 = .txIdle ∧
  decode 0b00110000#8 = .txNext ∧ decode 0b00010001#8 = .reservedMbzOp1_0001 ∧
  decode 0b01000000#8 = .reservedOp4 0#4 ∧ decode 0b00001000#8 = .reservedMbzOp0_1xxx 0#3 ∧
  decode 0b11111111#8 = .reservedOpF 15#4

/-- 30_encoding.md R79: what the assembler gives for a mnemonic and for `.cmd 0xNN`, and that assembling what the disassembler
prints gives the word back. There are no other mnemonics. -/
def Obligations.AssembleDisassemble : Prop :=
  assemble? ["NOP".toList] = some 0x00#8 ∧ assemble? ["RUN".toList] = some 0x10#8 ∧
  assemble? ["TX_IDLE".toList] = some 0x20#8 ∧ assemble? ["TX_NEXT".toList] = some 0x30#8 ∧
  (∀ m : List Char, m ≠ "NOP".toList → m ≠ "RUN".toList → m ≠ "TX_IDLE".toList → m ≠ "TX_NEXT".toList →
    assemble? [m] = none) ∧
  (∀ w : Byte, assemble? [".cmd".toList, byteText w] = some w) ∧
  (∀ w : Byte, disassemble w =
    if w = 0x00#8 then ["NOP".toList] else if w = 0x10#8 then ["RUN".toList]
    else if w = 0x20#8 then ["TX_IDLE".toList] else if w = 0x30#8 then ["TX_NEXT".toList]
    else [".cmd".toList, byteText w]) ∧
  ∀ w : Byte, assemble? (disassemble w) = some w

/-- 30_encoding.md R74, 41_frame_encoder.md R110: `Levels(F)` has `8·N` elements, and element `k` is HIGH if bit `7 - (k mod 8)`
of byte `k div 8` is 1, and LOW if it is 0 (R75). -/
def Obligations.LevelsAreMsbFirst : Prop :=
  ∀ frame : List Byte, (levels frame).length = 8 * frame.length ∧
    ∀ k, k < 8 * frame.length →
      (levels frame)[k]? = some (if (frame.getD (k / 8) 0#8).getLsbD (7 - k % 8) then .high else .low)

/-! ### The configuration and the frame store -/

/-- 20_memory.md R51: in a configuration made of `IDLE` and `PAT`, slot 0 holds the idle frame and slot `1 + p` pattern `p`, byte
`i` of slot `k` at address `k · N + i`; and the configuration is well formed. -/
def Obligations.FrameStoreHoldsTheFrames : Prop :=
  ∀ (n p d : Nat) (r y : Int) (idle : List Byte) (pats : List (List Byte)) (c : Config),
    Config.ofParams n p d r y idle pats = some c →
      c.wf ∧ c.frameLen = n ∧ c.numPatterns = p ∧ c.bitUs = d ∧ (c.rotMs : Int) = r ∧ (c.yieldUs : Int) = y ∧
      (∀ i, i < n → memRead c (0 * n + i) = some (idle.getD i 0#8)) ∧
      ∀ q i, q < p → i < n → memRead c ((1 + q) * n + i) = some ((pats.getD q []).getD i 0#8)

/-- 00_scope.md R7: parameters make no configuration exactly when they are outside R6's ranges, and a step gives a configuration that breaks R7 no
meaning; it is a refusal and not a fault. -/
def Obligations.InvalidConfigurationRejected : Prop :=
  (∀ (n p d : Nat) (r y : Int) (idle : List Byte) (pats : List (List Byte)),
    Config.ofParams n p d r y idle pats = none ↔
      n = 0 ∨ p = 0 ∨ d = 0 ∨ idle.length ≠ n ∨ pats.length ≠ p ∨ (∃ f ∈ pats, f.length ≠ n) ∨ r < 0 ∨ y < 0) ∧
  ∀ s : State, ¬ s.cfg.wf → step s = .refused .invalidConfig

/-- 20_memory.md R53: no number of ticks, in any mode and with any inputs, changes the frame store or another parameter; every
byte of every frame reads as before. -/
def Obligations.FrameStoreNeverWritten : Prop :=
  ∀ (n : Nat) (s t : State), steps n s = .next t →
    t.cfg = s.cfg ∧ (∀ a, memRead t.cfg a = memRead s.cfg a) ∧ ∀ slot, frameOf t.cfg slot = frameOf s.cfg slot

/-! ### The commands -/

/-- 46_commands.md R182: NOP does nothing in part B, and its tick changes only `now_us` of the record; the block stays READY. -/
def Obligations.NopCompletes : Prop :=
  (∀ s : State, exec .nop s = .next s) ∧
  ∀ s : State, StateOk s → accepted s = some 0x00#8 →
    ∃ t, step s = .next t ∧ t.cfg = s.cfg ∧ t.blk = { s.blk with nowUs := s.blk.nowUs + 1#64 } ∧ cmdReady t.blk = true

/-- 46_commands.md R183: RUN enters RUN and IDLE_TX and starts the idle send, slot 0, in this tick; with the pin not ready the
fault of its first bit write overrides the mode with HALTED. Every other field of the state, `last_pattern_ms` and `rot_idx`
among them, is unchanged. -/
def Obligations.RunCompletes : Prop :=
  ∀ s : State, StateOk s →
    (s.ports.pinReady = true → exec .run s = .next { s with
      blk := startedBlock s.cfg 0 { s.blk with mode := .run, runPhase := .idleTx } }) ∧
    (s.ports.pinReady = false → exec .run s = .next { s with
      blk := failedStartBlock s.cfg 0 { s.blk with mode := .run, runPhase := .idleTx } })

/-- 46_commands.md R184: TX_IDLE starts one transmission of slot 0. -/
def Obligations.TxIdleCompletes : Prop :=
  ∀ s : State, StateOk s →
    (s.ports.pinReady = true → exec .txIdle s = .next { s with
      blk := startedBlock s.cfg 0 { s.blk with mode := .oneshot, osKind := .idle } }) ∧
    (s.ports.pinReady = false → exec .txIdle s = .next { s with
      blk := failedStartBlock s.cfg 0 { s.blk with mode := .oneshot, osKind := .idle } })

/-- 46_commands.md R185, 44_pattern_library.md R151: TX_NEXT starts one transmission of slot `1 + rot_idx`, one of `1..P`, and
does not advance the index. -/
def Obligations.TxNextCompletes : Prop :=
  ∀ s : State, StateOk s →
    (s.ports.pinReady = true → exec .txNext s = .next { s with
      blk := startedBlock s.cfg (1 + s.blk.rotIdx) { s.blk with mode := .oneshot, osKind := .pattern } }) ∧
    (s.ports.pinReady = false → exec .txNext s = .next { s with
      blk := failedStartBlock s.cfg (1 + s.blk.rotIdx) { s.blk with mode := .oneshot, osKind := .pattern } }) ∧
    1 ≤ 1 + s.blk.rotIdx ∧ 1 + s.blk.rotIdx ≤ s.cfg.numPatterns

/-- 46_commands.md R186, for each of the 28 illegal rows of the opcode table: `cmd_err` becomes 1 and nothing else changes. -/
def Obligations.IllegalCommandsComplete : Prop :=
  ∀ (s : State) (m4 : BitVec 4) (m3 : BitVec 3) (m2 : BitVec 2) (m1 : BitVec 1),
  let t : State := { s with blk := { s.blk with cmdErr := true } }
  exec (.reservedOp4 m4) s = .next t ∧
  exec (.reservedOp5 m4) s = .next t ∧
  exec (.reservedOp6 m4) s = .next t ∧
  exec (.reservedOp7 m4) s = .next t ∧
  exec (.reservedOp8 m4) s = .next t ∧
  exec (.reservedOp9 m4) s = .next t ∧
  exec (.reservedOpA m4) s = .next t ∧
  exec (.reservedOpB m4) s = .next t ∧
  exec (.reservedOpC m4) s = .next t ∧
  exec (.reservedOpD m4) s = .next t ∧
  exec (.reservedOpE m4) s = .next t ∧
  exec (.reservedOpF m4) s = .next t ∧
  exec (.reservedMbzOp0_1xxx m3) s = .next t ∧
  exec (.reservedMbzOp0_01xx m2) s = .next t ∧
  exec (.reservedMbzOp0_001x m1) s = .next t ∧
  exec (.reservedMbzOp0_0001) s = .next t ∧
  exec (.reservedMbzOp1_1xxx m3) s = .next t ∧
  exec (.reservedMbzOp1_01xx m2) s = .next t ∧
  exec (.reservedMbzOp1_001x m1) s = .next t ∧
  exec (.reservedMbzOp1_0001) s = .next t ∧
  exec (.reservedMbzOp2_1xxx m3) s = .next t ∧
  exec (.reservedMbzOp2_01xx m2) s = .next t ∧
  exec (.reservedMbzOp2_001x m1) s = .next t ∧
  exec (.reservedMbzOp2_0001) s = .next t ∧
  exec (.reservedMbzOp3_1xxx m3) s = .next t ∧
  exec (.reservedMbzOp3_01xx m2) s = .next t ∧
  exec (.reservedMbzOp3_001x m1) s = .next t ∧
  exec (.reservedMbzOp3_0001) s = .next t

/-- 46_commands.md R186: an accepted illegal word sets CMD_ERR, the block stays READY with the line, the index and the timestamps
untouched, it can accept the next command in the next tick, and CMD_ERR stays 1 until reset. -/
def Obligations.IllegalWordIsNotFatal : Prop :=
  ∀ (s : State) (w : Byte), StateOk s → accepted s = some w → (decode w).isLegal = false →
    ∃ t, step s = .next t ∧ t.cfg = s.cfg ∧ t.blk = { s.blk with cmdErr := true, nowUs := s.blk.nowUs + 1#64 } ∧
      (status t.blk).getLsbD 3 = true ∧ eventOf s t = .illegalCommand ∧
      (∀ v i rest, s.feed = i :: rest → i.rst = false → i.cmdValid = true → i.cmd = v → accepted t = some v) ∧
      ∀ n u, noReset t n → steps n t = .next u → u.blk.cmdErr = true

/-- What every command leaves unchanged when it completes: the parameters with every byte of the frame store, the ports and the
pad, `now_us` (the step advances it), `rot_idx`, `last_pattern_ms` and `yield_cnt`; NOP and an illegal command also leave all
that a transmission uses (46_commands.md R182-R186). -/
def Obligations.CommandFrame : Prop :=
  ∀ (i : Instr) (s t : State), exec i s = .next t →
    t.cfg = s.cfg ∧ (∀ a, memRead t.cfg a = memRead s.cfg a) ∧
    t.ports = s.ports ∧ t.feed = s.feed ∧ t.pad = s.pad ∧ t.padDraws = s.padDraws ∧ t.resetSeen = s.resetSeen ∧
    t.blk.nowUs = s.blk.nowUs ∧ t.blk.rotIdx = s.blk.rotIdx ∧ t.blk.lastPatternMs = s.blk.lastPatternMs ∧
    t.blk.yieldCnt = s.blk.yieldCnt ∧
    (i ≠ .run → t.blk.runPhase = s.blk.runPhase) ∧
    (i ≠ .txIdle → i ≠ .txNext → t.blk.osKind = s.blk.osKind) ∧
    (i.isLegal = true → t.blk.cmdErr = s.blk.cmdErr) ∧
    (startsTransmission i = false → t.blk = { s.blk with cmdErr := t.blk.cmdErr }) ∧
    (startsTransmission i = true → s.ports.pinReady = true → t.blk.fault = s.blk.fault)

/-- A step of a READY block that accepts a word, in a run that starts from RESET, is `exec` of the decoded instruction and then the
advance of `now_us` (46_commands.md R180, R181, R188). The last two clauses are the model's choice and not the spec's (log entry 5):
how the inputs of the ticks to come are held in `feed`, and that they are quiet past its end. -/
def Obligations.StepRunsDecodedCommand : Prop :=
  (∀ (s : State) (w : Byte), s.cfg.wf → s.resetSeen = true → s.blk.txActive = false → accepted s = some w →
    step s = match exec (decode w) s with
      | .next t => .next (closeTickC t)
      | .fault f => .fault f
      | .refused r => .refused r) ∧
  ∀ t : State, (closeTickC t).cfg = t.cfg ∧ (closeTickC t).blk = { t.blk with nowUs := t.blk.nowUs + 1#64 } ∧
    (closeTickC t).ports = t.feed.headD Inputs.quiet ∧ (closeTickC t).feed = t.feed.tail

/-- A word placed by `withFetchWord` is accepted and run by the very next step, and the invariants hold of that state (the
model's own placing, log entry 7). -/
def Obligations.FetchWordRunsDecodedCommand : Prop :=
  ∀ (s : State) (w : Byte), StateOk s →
    let s0 := s.withFetchWord 8 w.toNat
    decodeTableWord 8 w.toNat = some (decode w) ∧ StateOk s0 ∧ accepted s0 = some w ∧
    (s.blk.mode = .ready → s0.blk = s.blk) ∧ s0.cfg = s.cfg ∧
    step s0 = match exec (decode w) s0 with
      | .next t => .next (closeTickC t)
      | .fault f => .fault f
      | .refused r => .refused r

/-- 46_commands.md R180: a command is accepted iff `rst = 0`, `cmd_valid = 1` and the mode is READY; one that is not accepted has
no effect at all, whatever its word. -/
def Obligations.UnacceptedCommandHasNoEffect : Prop :=
  (∀ (s : State) (w : Byte), accepted s = some w ↔
    s.ports.rst = false ∧ s.ports.cmdValid = true ∧ cmdReady s.blk = true ∧ s.ports.cmd = w) ∧
  ∀ (s : State) (v : Bool) (w : Byte), accepted s = none →
    accepted { s with ports := { s.ports with cmdValid := v, cmd := w } } = none →
    step { s with ports := { s.ports with cmdValid := v, cmd := w } } = step s

/-! ### Reset -/

/-- 70_reset_and_hazards.md R220: a reset tick gives RESET whatever the mode, accepts no command and cannot fault, and the pad
follows R121; and reset is the only way out of HALTED and of RUN (a RUN can also halt). -/
def Obligations.ResetTickGivesReset : Prop :=
  (∀ s : State, s.cfg.wf → s.ports.rst = true →
    accepted s = none ∧ ∃ t, step s = .next t ∧ t.cfg = s.cfg ∧ t.blk =
      { nowUs := 0#64, lineQ := .low, txActive := false, txPhase := .bit, txSlot := 0, byteIdx := 0, bitIdx := 0,
        workByte := 0x00#8, cnt := 0, mode := .ready, osKind := .idle, runPhase := .idleTx, yieldCnt := 0,
        rotIdx := 0, lastPatternMs := 0#64, fault := false, cmdErr := false } ∧
      status t.blk = 0x0000#16 ∧ cmdReady t.blk = true ∧
      (s.ports.pinReady = true → t.pad = .low) ∧
      (s.ports.pinReady = false → t.pad = Config.freePad s.padDraws)) ∧
  ∀ s t : State, StateOk s → s.ports.rst = false → step s = .next t →
    (s.blk.mode = .halted → t.blk.mode = .halted) ∧
    (s.blk.mode = .run → t.blk.mode = .run ∨ t.blk.mode = .halted)

/-- 70_reset_and_hazards.md R222: whatever the record is at power-on, a step with no reset gives no meaning, so no input counts
before the first reset tick; a reset tick gives RESET; every step that gives a next state belongs to a run that starts from RESET;
and a READY block to which no command is presented waits in READY, with no action of its own. That a reset has happened is
`resetSeen`, a field of the model's own (log entry 8). -/
def Obligations.RunStartsFromReset : Prop :=
  (∀ s : State, s.cfg.wf → s.resetSeen = false → s.ports.rst = false → step s = .refused .noResetYet) ∧
  (∀ (c : Config) (b : Block) (i : Inputs), c.wf →
    let s : State := { State.powerOn c b with ports := i }
    (i.rst = false → step s = .refused .noResetYet) ∧
    (i.rst = true → ∃ t, step s = .next t ∧ t.resetSeen = true ∧ t.cfg = c ∧ t.blk =
      { nowUs := 0#64, lineQ := .low, txActive := false, txPhase := .bit, txSlot := 0, byteIdx := 0, bitIdx := 0,
        workByte := 0x00#8, cnt := 0, mode := .ready, osKind := .idle, runPhase := .idleTx, yieldCnt := 0,
        rotIdx := 0, lastPatternMs := 0#64, fault := false, cmdErr := false })) ∧
  (∀ (n : Nat) (s t : State), steps (n + 1) s = .next t → t.resetSeen = true ∧ (s.resetSeen = true ∨ s.ports.rst = true)) ∧
  ∀ s : State, StateOk s → s.blk.mode = .ready → s.ports.rst = false → accepted s = none →
    step s = .next (closeTickC s) ∧ (closeTickC s).blk = { s.blk with nowUs := s.blk.nowUs + 1#64 }

/-- The state after reset meets the invariants under any configuration R7 allows, `State.reset`'s own among them. Its
configuration is the model's choice (log entry 2). -/
def Obligations.ResetMeetsInvariants : Prop :=
  (∀ c : Config, c.wf → StateOk (State.boot c) ∧ EncoderAgrees (State.boot c) ∧ SlotAgrees (State.boot c)) ∧
  StateOk State.reset ∧ EncoderAgrees State.reset ∧ SlotAgrees State.reset

/-! ### Invariants that every step keeps -/

/-- The ranges of 10_state.md R23 and the invariants of R26 are kept by every step from every state that meets them. -/
def Obligations.StepKeepsInvariants : Prop :=
  ∀ s t : State, StateOk s → step s = .next t → StateOk t

/-- The hardware encoder sends `encode(F)`: every step keeps that the line of a bit cell shows `Levels(F)` and that the working
byte is the current byte shifted, through faults too (41_frame_encoder.md R111, 60_exceptions.md R202). -/
def Obligations.StepKeepsEncoderAgreement : Prop :=
  ∀ s t : State, StateOk s → EncoderAgrees s → step s = .next t → EncoderAgrees t

/-- 30_encoding.md R73: TX_IDLE and RUN's idle sends send slot 0, and TX_NEXT and RUN's pattern sends slot `1 + rot_idx`, in every
tick of the send; every step keeps it. -/
def Obligations.StepKeepsSlotAgreement : Prop :=
  ∀ s t : State, StateOk s → SlotAgrees s → step s = .next t → SlotAgrees t

/-- From a state that meets the invariants a step always has a next state: no fault and no refusal of the model's own is reached
(60_exceptions.md R205, 20_memory.md R50). -/
def Obligations.StepAlwaysAnswers : Prop :=
  ∀ s : State, StateOk s → ∃ t, step s = .next t

/-! ### The transmitter -/

/-- 43_frame_transmitter.md R132: inside a bit cell a tick only counts; for `D = 1` there is no such tick. -/
def Obligations.InsideBitCellCounts : Prop :=
  (∀ s : State, StateOk s → s.ports.rst = false → s.blk.txActive = true → s.blk.txPhase = .bit → s.blk.cnt < s.cfg.bitUs →
    step s = .next (closeTickC { s with blk := { s.blk with cnt := s.blk.cnt + 1 } })) ∧
  ∀ s : State, StateOk s → s.blk.txActive = true → s.blk.txPhase = .bit → s.cfg.bitUs = 1 → ¬ s.blk.cnt < s.cfg.bitUs

/-- 43_frame_transmitter.md R133: after `D` ticks the next cell starts: the next bit of the working byte, or bit 7 of the next
byte, loaded whole. With the pin not ready the block halts with the indices of the cell whose write failed. -/
def Obligations.NextCellStarts : Prop :=
  ∀ s : State, StateOk s → s.ports.rst = false → s.blk.txActive = true → s.blk.txPhase = .bit → s.blk.cnt = s.cfg.bitUs →
    ¬(s.blk.bitIdx = 7 ∧ s.blk.byteIdx = s.cfg.frameLen - 1) →
    let next := s.cfg.store.get (frameAddr s.cfg s.blk.txSlot (s.blk.byteIdx + 1))
    (s.blk.bitIdx < 7 → s.ports.pinReady = true → step s = .next (closeTickC { s with blk := { s.blk with
      bitIdx := s.blk.bitIdx + 1, lineQ := if s.blk.workByte.getLsbD 7 then .high else .low,
      workByte := s.blk.workByte <<< 1, cnt := 1 } })) ∧
    (s.blk.bitIdx < 7 → s.ports.pinReady = false → step s = .next (closeTickC { s with blk := { s.blk with
      bitIdx := s.blk.bitIdx + 1, fault := true, mode := .halted, txActive := false, lineQ := .low } })) ∧
    (s.blk.bitIdx = 7 → s.ports.pinReady = true → step s = .next (closeTickC { s with blk := { s.blk with
      byteIdx := s.blk.byteIdx + 1, bitIdx := 0, lineQ := if next.getLsbD 7 then .high else .low,
      workByte := next <<< 1, cnt := 1 } })) ∧
    (s.blk.bitIdx = 7 → s.ports.pinReady = false → step s = .next (closeTickC { s with blk := { s.blk with
      byteIdx := s.blk.byteIdx + 1, bitIdx := 0, workByte := next,
      fault := true, mode := .halted, txActive := false, lineQ := .low } }))

/-- 43_frame_transmitter.md R134: the gap write after the last bit cell; a failing one is recorded with `tx_phase` GAP and `cnt`
as it was. -/
def Obligations.GapWriteForcesLow : Prop :=
  ∀ s : State, StateOk s → s.ports.rst = false → s.blk.txActive = true → s.blk.txPhase = .bit → s.blk.cnt = s.cfg.bitUs →
    s.blk.bitIdx = 7 → s.blk.byteIdx = s.cfg.frameLen - 1 →
    (s.ports.pinReady = true → step s = .next (closeTickC { s with blk := { s.blk with
      txPhase := .gap, lineQ := .low, cnt := 1 } })) ∧
    (s.ports.pinReady = false → step s = .next (closeTickC { s with blk := { s.blk with
      txPhase := .gap, fault := true, mode := .halted, txActive := false, lineQ := .low } }))

/-- 43_frame_transmitter.md R135 and 46_commands.md R187: the gap counts to `8·D`, and in the tick after it a one-shot completes:
BUSY clears, a pattern advances the index, the mode is READY, and nothing is written to the line. -/
def Obligations.GapCountsThenOneshotCompletes : Prop :=
  ∀ s : State, StateOk s → s.ports.rst = false → s.blk.txActive = true → s.blk.txPhase = .gap →
    (s.blk.cnt < 8 * s.cfg.bitUs →
      step s = .next (closeTickC { s with blk := { s.blk with cnt := s.blk.cnt + 1 } })) ∧
    (s.blk.cnt = 8 * s.cfg.bitUs → s.blk.mode = .oneshot →
      step s = .next (closeTickC { s with blk := { s.blk with
        txActive := false, mode := .ready,
        rotIdx := match s.blk.osKind with
          | .pattern => (s.blk.rotIdx + 1) % s.cfg.numPatterns
          | .idle => s.blk.rotIdx } }))

/-- 43_frame_transmitter.md R136, 30_encoding.md R76: a transmission started in a tick, with the pin ready and no reset, shows its
frame's waveform tick by tick: cell `j` starts `j·D` ticks later, the gap `8·N·D` ticks later, it is busy for exactly
`L = (8·N + 8)·D` ticks and completes in the tick `L` ticks later. Cell `j` is HIGH if bit `7 - (j mod 8)` of the frame's byte
`j div 8` is 1 and LOW if it is 0, and the gap is LOW. -/
def Obligations.TransmissionWaveform : Prop :=
  ∀ (s : State) (n : Nat), StateOk s → EncoderAgrees s → justStarted s → n < txTicks s.cfg → pinHeld s n →
    ∃ t, steps n s = .next t ∧ t.cfg = s.cfg ∧ t.blk.txActive = true ∧ t.blk.txSlot = s.blk.txSlot ∧
      t.blk.lineQ = waveform s.cfg (frameOf s.cfg s.blk.txSlot) n ∧
      (n < 8 * s.cfg.frameLen * s.cfg.bitUs → t.blk.txPhase = .bit ∧
        8 * t.blk.byteIdx + t.blk.bitIdx = n / s.cfg.bitUs ∧ t.blk.cnt = n % s.cfg.bitUs + 1 ∧
        t.blk.lineQ = if ((frameOf s.cfg s.blk.txSlot).getD (n / s.cfg.bitUs / 8) 0#8).getLsbD (7 - n / s.cfg.bitUs % 8)
          then .high else .low) ∧
      (8 * s.cfg.frameLen * s.cfg.bitUs ≤ n → t.blk.txPhase = .gap ∧
        t.blk.cnt = n - 8 * s.cfg.frameLen * s.cfg.bitUs + 1 ∧ t.blk.lineQ = .low) ∧
      (txDone t = true ↔ n + 1 = txTicks s.cfg)

/-- 43_frame_transmitter.md R137: a transmission that completes makes `8·N` bit writes and one gap write. Its first bit write is
made in the tick that starts it; of the `L - 1` ticks after that tick exactly `8·N - 1` make a bit write and exactly one makes the
gap write. -/
def Obligations.TransmissionWriteCount : Prop :=
  ∀ s : State, StateOk s → justStarted s → pinHeld s (txTicks s.cfg - 1) →
    countTicks writesBit (txTicks s.cfg - 1) s = 8 * s.cfg.frameLen - 1 ∧
    countTicks writesGap (txTicks s.cfg - 1) s = 1

/-- 46_commands.md R189, 44_pattern_library.md R152: a one-shot accepted in a tick is busy for the `L` ticks after it, with
`cmd_ready = 0`, and the next command can be accepted `L + 1` ticks later; TX_NEXT has then sent slot `1 + rot_idx` and advanced
the index, TX_IDLE slot 0 and not. -/
def Obligations.OneshotLatency : Prop :=
  ∀ (s : State) (w : Byte), StateOk s → accepted s = some w → decode w = .txIdle ∨ decode w = .txNext →
    pinHeld s (txTicks s.cfg + 1) →
    (∀ n, 1 ≤ n → n ≤ txTicks s.cfg → ∃ t, steps n s = .next t ∧ t.blk.mode = .oneshot ∧ cmdReady t.blk = false ∧
      t.blk.txSlot = (if decode w = .txIdle then 0 else 1 + s.blk.rotIdx) ∧ t.blk.rotIdx = s.blk.rotIdx) ∧
    ∃ t, steps (txTicks s.cfg + 1) s = .next t ∧ cmdReady t.blk = true ∧ t.blk.txActive = false ∧ t.blk.lineQ = .low ∧
      t.blk.rotIdx = (if decode w = .txIdle then s.blk.rotIdx else (s.blk.rotIdx + 1) % s.cfg.numPatterns) ∧
      t.blk.lastPatternMs = s.blk.lastPatternMs ∧
      t.blk.nowUs = s.blk.nowUs + BitVec.ofNat 64 (txTicks s.cfg + 1)

/-! ### The scheduler -/

/-- 45_scheduler.md R162, in the tick the idle send ends. When the strict test holds the timestamp is set to this tick's `now_ms`,
PATTERN_TX is entered and slot `1 + rot_idx` is started in the same tick; with the pin not ready the block halts and keeps the new
timestamp. Otherwise no pattern is sent: the yield starts, or for `Y = 0` the next idle send (R165). -/
def Obligations.RotationCheckDecides : Prop :=
  ∀ s : State, StateOk s → s.ports.rst = false → s.blk.mode = .run → s.blk.runPhase = .idleTx → txDone s = true →
    let m := s.blk.nowUs / 1000#64
    let due := s.cfg.rotMs < (m - s.blk.lastPatternMs).toNat
    (due → s.ports.pinReady = true → step s = .next (closeTickC { s with
      blk := startedBlock s.cfg (1 + s.blk.rotIdx) { s.blk with lastPatternMs := m, runPhase := .patternTx } })) ∧
    (due → s.ports.pinReady = false → step s = .next (closeTickC { s with
      blk := failedStartBlock s.cfg (1 + s.blk.rotIdx) { s.blk with lastPatternMs := m, runPhase := .patternTx } })) ∧
    (¬ due → s.cfg.yieldUs ≠ 0 → step s = .next (closeTickC { s with blk := { s.blk with
      txActive := false, runPhase := .yielding, yieldCnt := 1 } })) ∧
    (¬ due → s.cfg.yieldUs = 0 → s.ports.pinReady = true →
      step s = .next (closeTickC { s with blk := startedBlock s.cfg 0 s.blk })) ∧
    (¬ due → s.cfg.yieldUs = 0 → s.ports.pinReady = false →
      step s = .next (closeTickC { s with blk := failedStartBlock s.cfg 0 s.blk }))

/-- 45_scheduler.md R164: the end of the pattern send advances the index and starts the yield (R165). In a tick in which the send
does not end part B does nothing at all. -/
def Obligations.PatternEndAdvancesAndYields : Prop :=
  ∀ s : State, StateOk s → s.ports.rst = false → s.blk.mode = .run → s.blk.runPhase = .patternTx →
    let r := (s.blk.rotIdx + 1) % s.cfg.numPatterns
    (txDone s = true → s.cfg.yieldUs ≠ 0 → step s = .next (closeTickC { s with blk := { s.blk with
      txActive := false, rotIdx := r, runPhase := .yielding, yieldCnt := 1 } })) ∧
    (txDone s = true → s.cfg.yieldUs = 0 → s.ports.pinReady = true → step s = .next (closeTickC { s with
      blk := startedBlock s.cfg 0 { s.blk with rotIdx := r, runPhase := .idleTx } })) ∧
    (txDone s = true → s.cfg.yieldUs = 0 → s.ports.pinReady = false → step s = .next (closeTickC { s with
      blk := failedStartBlock s.cfg 0 { s.blk with rotIdx := r, runPhase := .idleTx } })) ∧
    (txDone s = false → (∀ s', partB s s' = .next s') ∧ ∀ t, step s = .next t →
      t.blk.rotIdx = s.blk.rotIdx ∧ t.blk.runPhase = s.blk.runPhase ∧ t.blk.yieldCnt = s.blk.yieldCnt)

/-- 45_scheduler.md R166: the yield counts to `Y` and then the idle send starts, in the tick `Y` ticks after the yield began. -/
def Obligations.YieldCountsThenIdle : Prop :=
  ∀ s : State, StateOk s → s.ports.rst = false → s.blk.mode = .run → s.blk.runPhase = .yielding →
    s.blk.txActive = false ∧ 1 ≤ s.cfg.yieldUs ∧
    (s.blk.yieldCnt < s.cfg.yieldUs →
      step s = .next (closeTickC { s with blk := { s.blk with yieldCnt := s.blk.yieldCnt + 1 } })) ∧
    (s.blk.yieldCnt = s.cfg.yieldUs → s.ports.pinReady = true → step s = .next (closeTickC { s with
      blk := startedBlock s.cfg 0 { s.blk with runPhase := .idleTx } })) ∧
    (s.blk.yieldCnt = s.cfg.yieldUs → s.ports.pinReady = false → step s = .next (closeTickC { s with
      blk := failedStartBlock s.cfg 0 { s.blk with runPhase := .idleTx } }))

/-- 45_scheduler.md R167: RUN accepts no command and is left only for HALTED, by a line write with the pin not ready, or by
reset. -/
def Obligations.RunHasNoTerminalState : Prop :=
  ∀ s t : State, StateOk s → s.blk.mode = .run → step s = .next t →
    accepted s = none ∧
    (s.ports.rst = true ∨ t.blk.mode = .run ∨ (t.blk.mode = .halted ∧ writesLine s = true ∧ s.ports.pinReady = false))

/-- 45_scheduler.md R168 without a pattern: the idle send that started in the tick before `s` is followed by a yield of `Y` ticks
with the line LOW, and the next idle send starts `L + Y` ticks after it. -/
def Obligations.IterationWithoutPattern : Prop :=
  ∀ s : State, StateOk s → justStarted s → s.blk.mode = .run → s.blk.runPhase = .idleTx →
    pinHeld s (txTicks s.cfg + s.cfg.yieldUs) →
    ¬ s.cfg.rotMs <
      ((s.blk.nowUs + BitVec.ofNat 64 (txTicks s.cfg - 1)) / 1000#64 - s.blk.lastPatternMs).toNat →
    (∀ n, txTicks s.cfg ≤ n → n < txTicks s.cfg + s.cfg.yieldUs → ∃ t, steps n s = .next t ∧
      t.blk.runPhase = .yielding ∧ t.blk.txActive = false ∧ t.blk.lineQ = .low) ∧
    ∃ t, steps (txTicks s.cfg + s.cfg.yieldUs) s = .next t ∧ justStarted t ∧ t.blk.mode = .run ∧
      t.blk.runPhase = .idleTx ∧ t.blk.txSlot = 0 ∧ t.blk.rotIdx = s.blk.rotIdx ∧
      t.blk.lastPatternMs = s.blk.lastPatternMs

/-- 45_scheduler.md R168 with a pattern: the pattern's first bit is written in the tick of the check, `L` ticks after the idle
send's, and the pattern is sent, the index not advanced, up to `2·L - 1` ticks after it. The index advances `2·L` ticks after it; in
that tick the yield of `Y` ticks begins, with the line LOW, and the next idle send starts `2·L + Y` ticks after it. -/
def Obligations.IterationWithPattern : Prop :=
  ∀ s : State, StateOk s → justStarted s → s.blk.mode = .run → s.blk.runPhase = .idleTx →
    pinHeld s (2 * txTicks s.cfg + s.cfg.yieldUs) →
    let m := (s.blk.nowUs + BitVec.ofNat 64 (txTicks s.cfg - 1)) / 1000#64
    s.cfg.rotMs < (m - s.blk.lastPatternMs).toNat →
    (∃ t, steps (txTicks s.cfg) s = .next t ∧ justStarted t ∧ t.blk.runPhase = .patternTx ∧
      t.blk.txSlot = 1 + s.blk.rotIdx ∧ t.blk.rotIdx = s.blk.rotIdx ∧ t.blk.lastPatternMs = m) ∧
    (∀ n, txTicks s.cfg ≤ n → n < 2 * txTicks s.cfg → ∃ t, steps n s = .next t ∧ t.blk.runPhase = .patternTx ∧
      t.blk.txActive = true ∧ t.blk.txSlot = 1 + s.blk.rotIdx ∧ t.blk.rotIdx = s.blk.rotIdx) ∧
    (∃ t, steps (2 * txTicks s.cfg) s = .next t ∧ t.blk.rotIdx = (s.blk.rotIdx + 1) % s.cfg.numPatterns ∧
      (1 ≤ s.cfg.yieldUs → t.blk.runPhase = .yielding ∧ t.blk.yieldCnt = 1)) ∧
    (∀ n, 2 * txTicks s.cfg ≤ n → n < 2 * txTicks s.cfg + s.cfg.yieldUs → ∃ t, steps n s = .next t ∧
      t.blk.runPhase = .yielding ∧ t.blk.txActive = false ∧ t.blk.lineQ = .low ∧
      t.blk.rotIdx = (s.blk.rotIdx + 1) % s.cfg.numPatterns) ∧
    ∃ t, steps (2 * txTicks s.cfg + s.cfg.yieldUs) s = .next t ∧ justStarted t ∧ t.blk.mode = .run ∧
      t.blk.runPhase = .idleTx ∧ t.blk.txSlot = 0 ∧ t.blk.rotIdx = (s.blk.rotIdx + 1) % s.cfg.numPatterns ∧
      t.blk.lastPatternMs = m

/-- 45_scheduler.md R170, the strict test's part of its lower bound: two rotation checks that each start a pattern are at least
`1000·R + 1` ticks apart, while `now_us` does not wrap. -/
def Obligations.PatternChecksAreSpaced : Prop :=
  ∀ (n : Nat) (s t : State), StateOk s → noReset s (n + 1) → steps (n + 1) s = .next t →
    s.blk.mode = .run → s.blk.runPhase = .idleTx → txDone s = true → rotationDue s = true →
    t.blk.mode = .run → t.blk.runPhase = .idleTx → txDone t = true → rotationDue t = true →
    s.blk.nowUs.toNat + n + 1 < 2 ^ 64 →
    1000 * s.cfg.rotMs + 1 ≤ n + 1

/-- 44_pattern_library.md R152: `rot_idx` advances modulo `P` in the tick in which a pattern transmission completes, in RUN or as
a one-shot, and no other tick but a reset writes it. -/
def Obligations.RotationAdvancesOnCompletion : Prop :=
  ∀ s t : State, StateOk s → step s = .next t →
    (s.ports.rst = true → t.blk.rotIdx = 0) ∧
    (s.ports.rst = false → t.blk.rotIdx =
      if txDone s ∧ ((s.blk.mode = .oneshot ∧ s.blk.osKind = .pattern) ∨ (s.blk.mode = .run ∧ s.blk.runPhase = .patternTx))
      then (s.blk.rotIdx + 1) % s.cfg.numPatterns else s.blk.rotIdx)

/-- 44_pattern_library.md R154: pattern transmissions go round robin. While no reset happens `rot_idx` has advanced, modulo `P`, by
the number of pattern transmissions completed, in RUN and as one-shots together, and the one that completes next sends the pattern
after as many. -/
def Obligations.PatternsGoRoundRobin : Prop :=
  ∀ (n : Nat) (s t : State), StateOk s → SlotAgrees s → noReset s n → steps n s = .next t →
    t.blk.rotIdx = (s.blk.rotIdx + countTicks completesPattern n s) % s.cfg.numPatterns ∧
    (completesPattern t = true →
      t.blk.txSlot = 1 + (s.blk.rotIdx + countTicks completesPattern n s) % s.cfg.numPatterns)

/-- 45_scheduler.md R162, 10_state.md R23: only a rotation check that sends a pattern writes `last_pattern_ms`, and only StartYield
and the yield write `yield_cnt`. -/
def Obligations.TimestampWrittenOnlyByCheck : Prop :=
  ∀ s t : State, StateOk s → s.ports.rst = false → step s = .next t →
    (t.blk.lastPatternMs =
      if s.blk.mode = .run ∧ s.blk.runPhase = .idleTx ∧ txDone s ∧ rotationDue s then nowMs s.blk
      else s.blk.lastPatternMs) ∧
    (t.blk.yieldCnt ≠ s.blk.yieldCnt → s.blk.mode = .run ∧
      (s.blk.runPhase = .yielding ∨ (txDone s = true ∧ t.blk.runPhase = .yielding ∧ t.blk.yieldCnt = 1)))

/-! ### The line, the pad and HardwareFault -/

/-- 70_reset_and_hazards.md R228: in a tick that writes the line, `pin_ready = 0` halts the block for good; in every other tick it
changes no state of the block but leaves the pad of that tick unspecified. -/
def Obligations.PinMattersOnlyWhenWriting : Prop :=
  ∀ s : State, StateOk s → s.ports.rst = false → s.blk.mode ≠ .halted →
    (writesLine s = true → s.ports.pinReady = false →
      ∃ t, step s = .next t ∧ t.blk.mode = .halted ∧ t.blk.fault = true ∧ eventOf s t = .hardwareFault ∧
        ∀ n u, noReset t n → steps n t = .next u → u.blk.mode = .halted) ∧
    (writesLine s = true → s.ports.pinReady = true → ∃ t, step s = .next t ∧ t.blk.fault = false) ∧
    (writesLine s = false → ∀ b t u, step { s with ports := { s.ports with pinReady := b } } = .next t →
      step s = .next u → t.blk = u.blk ∧ t.cfg = u.cfg ∧ t.ports = u.ports ∧ t.feed = u.feed ∧ u.blk.fault = false ∧
        (b = false → t.pad = Config.freePad s.padDraws))

/-- 60_exceptions.md R201: a tick in which FAULT becomes 1 is a tick of a line write with the pin not ready; the mode is HALTED,
the transmission ends, the line register is LOW, `now_us` still advances, and no completion's effect is left undone by it: the
index does not advance for the failing pattern and CMD_ERR stays. -/
def Obligations.FaultEntryHaltsTheBlock : Prop :=
  ∀ s t : State, StateOk s → s.ports.rst = false → s.blk.fault = false → step s = .next t → t.blk.fault = true →
    writesLine s = true ∧ s.ports.pinReady = false ∧
    t.blk.mode = .halted ∧ t.blk.txActive = false ∧ t.blk.lineQ = .low ∧
    t.blk.nowUs = s.blk.nowUs + 1#64 ∧ t.blk.cnt = s.blk.cnt ∧ t.blk.cmdErr = s.blk.cmdErr ∧ t.cfg = s.cfg

/-- 60_exceptions.md R202: the frozen state names the failing write. A fault of a running transmission is at the cell after the
last one written, or at the gap write after the last cell; a fault of a starting one is at cell 0 of its slot; and
`work_byte[7]` is the level that was not written. -/
def Obligations.FaultNamesTheFailingWrite : Prop :=
  ∀ s t : State, StateOk s → EncoderAgrees s → s.ports.rst = false → s.blk.fault = false → step s = .next t →
    t.blk.fault = true →
    (s.blk.txActive = true → s.blk.txPhase = .bit → t.blk.txSlot = s.blk.txSlot ∧
      (t.blk.txPhase = .bit → 8 * t.blk.byteIdx + t.blk.bitIdx = 8 * s.blk.byteIdx + s.blk.bitIdx + 1) ∧
      (t.blk.txPhase = .gap → 8 * s.blk.byteIdx + s.blk.bitIdx + 1 = 8 * s.cfg.frameLen)) ∧
    (¬(s.blk.txActive = true ∧ s.blk.txPhase = .bit) → t.blk.txPhase = .bit ∧ t.blk.byteIdx = 0 ∧ t.blk.bitIdx = 0) ∧
    (t.blk.txPhase = .bit →
      (levels (frameOf t.cfg t.blk.txSlot))[8 * t.blk.byteIdx + t.blk.bitIdx]? =
        some (if t.blk.workByte.getLsbD 7 then .high else .low))

/-- 60_exceptions.md R203: HALTED is left only by reset. However many ticks pass without one, whatever is presented and whether
the pin is ready or not, only `now_us` changes and no command is accepted. -/
def Obligations.HaltedStaysFrozen : Prop :=
  ∀ (n : Nat) (s : State), StateOk s → s.blk.mode = .halted → noReset s n →
    ∃ t, steps n s = .next t ∧ t.cfg = s.cfg ∧
      t.blk = { s.blk with nowUs := s.blk.nowUs + BitVec.ofNat 64 n } ∧ accepted t = none

/-- 42_line_driver.md R122: `line_q` is written only by a line write, which leaves it at the level written or LOW by fault entry,
and by reset. -/
def Obligations.LineHasASingleWriter : Prop :=
  ∀ s t : State, StateOk s → step s = .next t → t.blk.lineQ ≠ s.blk.lineQ →
    s.ports.rst = true ∨ writesLine s = true

/-- 42_line_driver.md R121: the pad of a tick is the line register after it with the pin ready, and otherwise any level, drawn
afresh: the free value is whatever `Config.freePad` gives for the next draw. -/
def Obligations.PadFollowsTheLine : Prop :=
  ∀ s t : State, step s = .next t →
    (s.ports.pinReady = true → t.pad = t.blk.lineQ ∧ t.padDraws = s.padDraws) ∧
    (s.ports.pinReady = false → t.pad = Config.freePad s.padDraws ∧ t.padDraws = s.padDraws + 1)

/-- 43_frame_transmitter.md R139: a transmission in progress is never changed: until it completes, faults or is reset its slot stays
and it stays active. -/
def Obligations.TransmissionsDoNotOverlap : Prop :=
  ∀ s t : State, StateOk s → s.ports.rst = false → s.blk.txActive = true → txDone s = false → step s = .next t →
    t.blk.txSlot = s.blk.txSlot ∧ (t.blk.txActive = true ∨ t.blk.mode = .halted)

/-! ### STATUS, flags, outputs and time -/

/-- 10_state.md R24: each field of STATUS, in every state and so with BUSY 0 as well, and its value in RESET. -/
def Obligations.StatusFields : Prop :=
  ∀ b : Block,
    (status b).getLsbD 0 = b.txActive ∧
    ((status b).getLsbD 1 = true ↔ b.lineQ = .high) ∧
    (status b).getLsbD 2 = b.fault ∧
    (status b).getLsbD 3 = b.cmdErr ∧
    ((status b).extractLsb' 4 2 = match b.mode with
      | .ready => 0#2
      | .oneshot => 1#2
      | .run => 2#2
      | .halted => 3#2) ∧
    ((status b).getLsbD 6 = true ↔ b.txSlot ≠ 0) ∧
    ((status b).getLsbD 7 = true ↔ b.txPhase = .gap) ∧
    ((status b).getLsbD 8 = true ↔ b.mode = .run ∧ b.runPhase = .yielding) ∧
    (status b).extractLsb' 9 7 = 0#7 ∧ status Block.reset = 0x0000#16

/-- 10_state.md R25: what sets and clears BUSY, FAULT and CMD_ERR. In a tick that is no reset FAULT and CMD_ERR are sticky, FAULT is
set only with HALTED entered, CMD_ERR only by an accepted illegal command, and BUSY clears only by completion or fault; a reset
clears all three. -/
def Obligations.FlagsAreSticky : Prop :=
  ∀ s t : State, StateOk s → step s = .next t →
    (s.ports.rst = true → t.blk.fault = false ∧ t.blk.cmdErr = false ∧ t.blk.txActive = false) ∧
    (s.ports.rst = false →
      (s.blk.fault = true → t.blk.fault = true) ∧
      (s.blk.fault = false → t.blk.fault = true → s.blk.mode ≠ .halted ∧ t.blk.mode = .halted) ∧
      (t.blk.cmdErr = (s.blk.cmdErr || illegalAccepted s)) ∧
      (s.blk.txActive = true → t.blk.txActive = false → txDone s = true ∨ (s.blk.fault = false ∧ t.blk.fault = true)) ∧
      (s.blk.txActive = false → t.blk.txActive = true → writesLine s = true))

/-- 10_state.md R22: `cmd_ready` is 1 iff the mode is READY, and `rot_idx_o` carries `rot_idx` whole: its width is the least `w ≥ 1`
with `P ≤ 2^w`. -/
def Obligations.OutputPorts : Prop :=
  (∀ b : Block, cmdReady b = true ↔ b.mode = .ready) ∧
  ∀ s : State, StateOk s → (rotIdxO s).toNat = s.blk.rotIdx ∧ 1 ≤ rotWidth s.cfg ∧ s.cfg.numPatterns ≤ 2 ^ rotWidth s.cfg ∧
    (1 < rotWidth s.cfg → 2 ^ (rotWidth s.cfg - 1) < s.cfg.numPatterns)

/-- 40_bit_timer.md R101, 70_reset_and_hazards.md R223: `now_us` advances by one, modulo `2^64`, in every tick that is no reset, a
tick that faults too, and a reset tick sets it to 0; so `n` ticks without reset advance it by `n`. -/
def Obligations.TimeAdvancesEveryTick : Prop :=
  (∀ s t : State, step s = .next t →
    t.blk.nowUs = if s.ports.rst then 0#64 else s.blk.nowUs + 1#64) ∧
  ∀ (n : Nat) (s t : State), noReset s n → steps n s = .next t → t.blk.nowUs = s.blk.nowUs + BitVec.ofNat 64 n

/-- 40_bit_timer.md R102: `now_ms = now_us div 1000`, truncating. The second clause, at most `2^64 div 1000`, is the model's
deduction from that formula and not R102's words, "a value below `2^64 div 1000`" (log entry 12). -/
def Obligations.MillisecondClockTruncates : Prop :=
  ∀ b : Block, (nowMs b).toNat = b.nowUs.toNat / 1000 ∧ (nowMs b).toNat ≤ 2 ^ 64 / 1000
end

