-- ==== Sys2Proof/Laws/State.lean ====
section
/-! SUPPORT. One lemma per field of State for each named update: what `blk` becomes, and that the configuration, the ports, the
inputs to come and the pad stay. -/

namespace Sys2Proof.Laws

open Sys2Proof.Machine

@[simp] theorem faultEntry_blk (s : State) : (faultEntry s).blk = { s.blk with fault := true, mode := .halted, txActive := false, lineQ := .low } := rfl
@[simp] theorem faultEntry_cfg (s : State) : (faultEntry s).cfg = s.cfg := rfl
@[simp] theorem faultEntry_ports (s : State) : (faultEntry s).ports = s.ports := rfl
@[simp] theorem faultEntry_feed (s : State) : (faultEntry s).feed = s.feed := rfl
@[simp] theorem faultEntry_pad (s : State) : (faultEntry s).pad = s.pad := rfl
@[simp] theorem faultEntry_padDraws (s : State) : (faultEntry s).padDraws = s.padDraws := rfl
@[simp] theorem faultEntry_resetSeen (s : State) : (faultEntry s).resetSeen = s.resetSeen := rfl

@[simp] theorem illegalCommand_blk (s : State) : (illegalCommand s).blk = { s.blk with cmdErr := true } := rfl
@[simp] theorem illegalCommand_cfg (s : State) : (illegalCommand s).cfg = s.cfg := rfl
@[simp] theorem illegalCommand_ports (s : State) : (illegalCommand s).ports = s.ports := rfl
@[simp] theorem illegalCommand_feed (s : State) : (illegalCommand s).feed = s.feed := rfl
@[simp] theorem illegalCommand_pad (s : State) : (illegalCommand s).pad = s.pad := rfl
@[simp] theorem illegalCommand_padDraws (s : State) : (illegalCommand s).padDraws = s.padDraws := rfl
@[simp] theorem illegalCommand_resetSeen (s : State) : (illegalCommand s).resetSeen = s.resetSeen := rfl

@[simp] theorem takeReset_blk (s : State) : (takeReset s).blk = Block.reset := rfl
@[simp] theorem takeReset_cfg (s : State) : (takeReset s).cfg = s.cfg := rfl
@[simp] theorem takeReset_ports (s : State) : (takeReset s).ports = s.ports := rfl
@[simp] theorem takeReset_feed (s : State) : (takeReset s).feed = s.feed := rfl
@[simp] theorem takeReset_pad (s : State) : (takeReset s).pad = s.pad := rfl
@[simp] theorem takeReset_padDraws (s : State) : (takeReset s).padDraws = s.padDraws := rfl
@[simp] theorem takeReset_resetSeen (s : State) : (takeReset s).resetSeen = true := rfl

@[simp] theorem advanceTime_blk (s : State) : (advanceTime s).blk = { s.blk with nowUs := s.blk.nowUs + 1#64 } := rfl
@[simp] theorem advanceTime_cfg (s : State) : (advanceTime s).cfg = s.cfg := rfl
@[simp] theorem advanceTime_ports (s : State) : (advanceTime s).ports = s.ports := rfl
@[simp] theorem advanceTime_feed (s : State) : (advanceTime s).feed = s.feed := rfl
@[simp] theorem advanceTime_pad (s : State) : (advanceTime s).pad = s.pad := rfl
@[simp] theorem advanceTime_padDraws (s : State) : (advanceTime s).padDraws = s.padDraws := rfl
@[simp] theorem advanceTime_resetSeen (s : State) : (advanceTime s).resetSeen = s.resetSeen := rfl

@[simp] theorem bitSent_blk (s : State) : (bitSent s).blk = { s.blk with workByte := shiftByte s.blk.workByte, cnt := 1 } := rfl
@[simp] theorem bitSent_cfg (s : State) : (bitSent s).cfg = s.cfg := rfl
@[simp] theorem bitSent_ports (s : State) : (bitSent s).ports = s.ports := rfl
@[simp] theorem bitSent_feed (s : State) : (bitSent s).feed = s.feed := rfl
@[simp] theorem bitSent_pad (s : State) : (bitSent s).pad = s.pad := rfl
@[simp] theorem bitSent_padDraws (s : State) : (bitSent s).padDraws = s.padDraws := rfl
@[simp] theorem bitSent_resetSeen (s : State) : (bitSent s).resetSeen = s.resetSeen := rfl

@[simp] theorem countTick_blk (s : State) : (countTick s).blk = { s.blk with cnt := s.blk.cnt + 1 } := rfl
@[simp] theorem countTick_cfg (s : State) : (countTick s).cfg = s.cfg := rfl
@[simp] theorem countTick_ports (s : State) : (countTick s).ports = s.ports := rfl
@[simp] theorem countTick_feed (s : State) : (countTick s).feed = s.feed := rfl
@[simp] theorem countTick_pad (s : State) : (countTick s).pad = s.pad := rfl
@[simp] theorem countTick_padDraws (s : State) : (countTick s).padDraws = s.padDraws := rfl
@[simp] theorem countTick_resetSeen (s : State) : (countTick s).resetSeen = s.resetSeen := rfl

@[simp] theorem advanceRotation_blk (s : State) : (advanceRotation s).blk = { s.blk with rotIdx := (s.blk.rotIdx + 1) % s.cfg.numPatterns } := rfl
@[simp] theorem advanceRotation_cfg (s : State) : (advanceRotation s).cfg = s.cfg := rfl
@[simp] theorem advanceRotation_ports (s : State) : (advanceRotation s).ports = s.ports := rfl
@[simp] theorem advanceRotation_feed (s : State) : (advanceRotation s).feed = s.feed := rfl
@[simp] theorem advanceRotation_pad (s : State) : (advanceRotation s).pad = s.pad := rfl
@[simp] theorem advanceRotation_padDraws (s : State) : (advanceRotation s).padDraws = s.padDraws := rfl
@[simp] theorem advanceRotation_resetSeen (s : State) : (advanceRotation s).resetSeen = s.resetSeen := rfl

@[simp] theorem gapTick_cfg (s : State) : (gapTick s).cfg = s.cfg := by unfold gapTick; split <;> rfl
@[simp] theorem gapTick_ports (s : State) : (gapTick s).ports = s.ports := by unfold gapTick; split <;> rfl
@[simp] theorem gapTick_feed (s : State) : (gapTick s).feed = s.feed := by unfold gapTick; split <;> rfl
@[simp] theorem gapTick_pad (s : State) : (gapTick s).pad = s.pad := by unfold gapTick; split <;> rfl
@[simp] theorem gapTick_padDraws (s : State) : (gapTick s).padDraws = s.padDraws := by unfold gapTick; split <;> rfl
@[simp] theorem gapTick_resetSeen (s : State) : (gapTick s).resetSeen = s.resetSeen := by unfold gapTick; split <;> rfl

@[simp] theorem latchPad_cfg (s : State) : (latchPad s).cfg = s.cfg := by unfold latchPad; split <;> rfl
@[simp] theorem latchPad_blk (s : State) : (latchPad s).blk = s.blk := by unfold latchPad; split <;> rfl
@[simp] theorem latchPad_ports (s : State) : (latchPad s).ports = s.ports := by unfold latchPad; split <;> rfl
@[simp] theorem latchPad_feed (s : State) : (latchPad s).feed = s.feed := by unfold latchPad; split <;> rfl

@[simp] theorem latchPad_resetSeen (s : State) : (latchPad s).resetSeen = s.resetSeen := by unfold latchPad; split <;> rfl

@[simp] theorem latchPorts_cfg (s : State) : (latchPorts s).cfg = s.cfg := by unfold latchPorts; split <;> rfl
@[simp] theorem latchPorts_blk (s : State) : (latchPorts s).blk = s.blk := by unfold latchPorts; split <;> rfl
@[simp] theorem latchPorts_pad (s : State) : (latchPorts s).pad = s.pad := by unfold latchPorts; split <;> rfl
@[simp] theorem latchPorts_padDraws (s : State) : (latchPorts s).padDraws = s.padDraws := by unfold latchPorts; split <;> rfl
@[simp] theorem latchPorts_resetSeen (s : State) : (latchPorts s).resetSeen = s.resetSeen := by unfold latchPorts; split <;> rfl

@[simp] theorem closeTick_cfg (s : State) : (closeTick s).cfg = s.cfg := by simp [closeTick]
@[simp] theorem closeTick_blk (s : State) : (closeTick s).blk = s.blk := by simp [closeTick]
@[simp] theorem closeTick_resetSeen (s : State) : (closeTick s).resetSeen = s.resetSeen := by simp [closeTick]
@[simp] theorem closeTickC_cfg (s : State) : (closeTickC s).cfg = s.cfg := by simp [closeTickC]
@[simp] theorem closeTickC_resetSeen (s : State) : (closeTickC s).resetSeen = s.resetSeen := by simp [closeTickC]
@[simp] theorem closeTickC_blk (s : State) :
    (closeTickC s).blk = { s.blk with nowUs := s.blk.nowUs + 1#64 } := by simp [closeTickC]

/-- The pad in a tick with the pin ready is the line (R121). -/
theorem closeTick_pad_of_ready (s : State) (h : s.ports.pinReady = true) : (closeTick s).pad = s.blk.lineQ := by
  simp [closeTick, latchPad, h]

/-- The pad in a tick with the pin not ready is the next free level (R121). -/
theorem closeTick_pad_of_not_ready (s : State) (h : s.ports.pinReady = false) :
    (closeTick s).pad = Config.freePad s.padDraws := by
  simp [closeTick, latchPad, h]

theorem latchPorts_ports (s : State) : (latchPorts s).ports = s.feed.headD Inputs.quiet := by
  unfold latchPorts; cases s.feed <;> rfl

theorem latchPorts_feed (s : State) : (latchPorts s).feed = s.feed.tail := by
  unfold latchPorts; cases s.feed <;> simp

@[simp] theorem closeTick_ports (s : State) : (closeTick s).ports = s.feed.headD Inputs.quiet := by
  simp [closeTick, latchPorts_ports]

@[simp] theorem closeTick_feed (s : State) : (closeTick s).feed = s.feed.tail := by
  simp [closeTick, latchPorts_feed]

@[simp] theorem closeTickC_ports (s : State) : (closeTickC s).ports = s.feed.headD Inputs.quiet := by
  simp [closeTickC]

@[simp] theorem closeTickC_feed (s : State) : (closeTickC s).feed = s.feed.tail := by
  simp [closeTickC]

end Sys2Proof.Laws
end

