-- ==== Sys2Proof/Laws/Ops.lean ====
section
/-! SUPPORT. One lemma per shared operation that says everything it can do: the primitives of 00_scope.md R10, the bit write, the
start of a transmission, the next cell, the gap write, and the scheduler's starts. -/

namespace Sys2Proof.Laws

open Sys2Proof.Machine

@[simp] theorem outcome_go (s : State) : (Act.go s).outcome = .next s := rfl
@[simp] theorem outcome_raised (p : FaultPos) (s : State) : (Act.raised p s).outcome = .next s := rfl
@[simp] theorem outcome_stop (f : Fault) : (Act.stop f).outcome = .fault f := rfl
@[simp] theorem andThen_go (s : State) (f : State → Act) : (Act.go s).andThen f = f s := rfl
@[simp] theorem andThen_raised (p : FaultPos) (s : State) (f : State → Act) : (Act.raised p s).andThen f = .raised p s := rfl
@[simp] theorem andThen_stop (e : Fault) (f : State → Act) : (Act.stop e).andThen f = .stop e := rfl

/-- An outcome of an action is never a refusal. -/
theorem outcome_ne_refused (a : Act) (r : Refusal) : a.outcome ≠ .refused r := by cases a <;> simp [Act.outcome]

/-- `SetLevel` with the pin ready (R120). -/
theorem setLevel_of_ready (l : Level) (p : FaultPos) (s : State) (h : s.ports.pinReady = true) :
    setLevel l p s = .go { s with blk := { s.blk with lineQ := l } } := by simp [setLevel, h]

/-- `SetLevel` with the pin not ready (R120). -/
theorem setLevel_of_not_ready (l : Level) (p : FaultPos) (s : State) (h : s.ports.pinReady = false) :
    setLevel l p s = .raised p (faultEntry s) := by simp [setLevel, raiseHardwareFault, h]

/-- The address of a byte of a slot lies in the frame store (R50, R51). -/
theorem frameAddr_lt (c : Config) (slot i : Nat) (hs : slot ≤ c.numPatterns) (hi : i < c.frameLen) :
    frameAddr c slot i < c.storeSize := by
  unfold frameAddr Config.storeSize
  have : slot * c.frameLen ≤ c.numPatterns * c.frameLen := Nat.mul_le_mul_right _ hs
  rw [Nat.succ_mul]; omega

/-- A read of the frame store inside its range (R50). -/
theorem memRead_of_lt (c : Config) (a : Nat) (h : a < c.storeSize) : memRead c a = some (c.store.get a) := by
  simp [memRead, h]

/-- A read of the frame store outside its range: there is no such byte (R50). -/
theorem memRead_of_ge (c : Config) (a : Nat) (h : ¬ a < c.storeSize) : memRead c a = none := by
  simp [memRead, h]

/-- Loading the working byte, with the slot and the byte index in range (R111). -/
theorem loadByte_of_range (s : State) (hs : s.blk.txSlot ≤ s.cfg.numPatterns) (hi : s.blk.byteIdx < s.cfg.frameLen) :
    loadByte s = .go { s with blk := { s.blk with workByte := currentByte s } } := by
  simp [loadByte, memRead_of_lt _ _ (frameAddr_lt s.cfg _ _ hs hi), currentByte]

/-- The level sent is HIGH exactly when bit 7 of the working byte is set (R75, R131). -/
theorem sendLevel_eq (w : Byte) : sendLevel w = if w.getLsbD 7 then .high else .low := by
  unfold sendLevel; cases w.getLsbD 7 <;> rfl

/-- The bit write with the pin ready (R131). -/
theorem emitBit_of_ready (s : State) (h : s.ports.pinReady = true) :
    emitBit s = .go { s with blk := { s.blk with
      lineQ := sendLevel s.blk.workByte, workByte := shiftByte s.blk.workByte, cnt := 1 } } := by
  simp [emitBit, setLevel_of_ready _ _ _ h, bitSent]

/-- The bit write with the pin not ready (R131, R201). -/
theorem emitBit_of_not_ready (s : State) (h : s.ports.pinReady = false) :
    emitBit s = .raised (.bitWrite s.blk.byteIdx s.blk.bitIdx) (faultEntry s) := by
  simp [emitBit, setLevel_of_not_ready _ _ _ h]

/-- `tx_start` with the pin ready (R130). -/
theorem txStart_of_ready (slot : Nat) (s : State) (hN : 1 ≤ s.cfg.frameLen) (hs : slot ≤ s.cfg.numPatterns)
    (h : s.ports.pinReady = true) :
    txStart slot s = .go { s with blk := startedBlock s.cfg slot s.blk } := by
  unfold txStart
  rw [loadByte_of_range _ hs (by exact hN)]
  simp only [andThen_go]
  rw [emitBit_of_ready _ (by exact h), sendLevel_eq]
  rfl

/-- `tx_start` with the pin not ready (R130, R201). -/
theorem txStart_of_not_ready (slot : Nat) (s : State) (hN : 1 ≤ s.cfg.frameLen) (hs : slot ≤ s.cfg.numPatterns)
    (h : s.ports.pinReady = false) :
    txStart slot s = .raised (.bitWrite 0 0) { s with blk := failedStartBlock s.cfg slot s.blk } := by
  unfold txStart
  rw [loadByte_of_range _ hs (by exact hN)]
  simp only [andThen_go]
  rw [emitBit_of_not_ready _ (by exact h)]
  rfl

/-- The next cell of the same byte, pin ready (R133). -/
theorem nextCell_bit_of_ready (s : State) (hb : s.blk.bitIdx < 7) (h : s.ports.pinReady = true) :
    nextCell s = .go { s with blk := { s.blk with
      bitIdx := s.blk.bitIdx + 1, lineQ := sendLevel s.blk.workByte, workByte := shiftByte s.blk.workByte, cnt := 1 } } := by
  rw [nextCell, if_pos hb, emitBit_of_ready _ (by exact h)]

/-- The next cell of the same byte, pin not ready (R133, R201). -/
theorem nextCell_bit_of_not_ready (s : State) (hb : s.blk.bitIdx < 7) (h : s.ports.pinReady = false) :
    nextCell s = .raised (.bitWrite s.blk.byteIdx (s.blk.bitIdx + 1))
      (faultEntry { s with blk := { s.blk with bitIdx := s.blk.bitIdx + 1 } }) := by
  rw [nextCell, if_pos hb, emitBit_of_not_ready _ (by exact h)]

/-- The first cell of the next byte, pin ready (R133). -/
theorem nextCell_byte_of_ready (s : State) (hb : ¬ s.blk.bitIdx < 7) (hs : s.blk.txSlot ≤ s.cfg.numPatterns)
    (hi : s.blk.byteIdx + 1 < s.cfg.frameLen) (h : s.ports.pinReady = true) :
    nextCell s = .go { s with blk := { s.blk with
      byteIdx := s.blk.byteIdx + 1, bitIdx := 0, cnt := 1
      lineQ := sendLevel (s.cfg.store.get (frameAddr s.cfg s.blk.txSlot (s.blk.byteIdx + 1)))
      workByte := shiftByte (s.cfg.store.get (frameAddr s.cfg s.blk.txSlot (s.blk.byteIdx + 1))) } } := by
  rw [nextCell, if_neg hb, loadByte_of_range _ (by exact hs) (by exact hi)]
  simp only [andThen_go]
  rw [emitBit_of_ready _ (by exact h)]
  rfl

/-- The first cell of the next byte, pin not ready (R133, R201). -/
theorem nextCell_byte_of_not_ready (s : State) (hb : ¬ s.blk.bitIdx < 7) (hs : s.blk.txSlot ≤ s.cfg.numPatterns)
    (hi : s.blk.byteIdx + 1 < s.cfg.frameLen) (h : s.ports.pinReady = false) :
    nextCell s = .raised (.bitWrite (s.blk.byteIdx + 1) 0) (faultEntry { s with blk := { s.blk with
      byteIdx := s.blk.byteIdx + 1, bitIdx := 0
      workByte := s.cfg.store.get (frameAddr s.cfg s.blk.txSlot (s.blk.byteIdx + 1)) } }) := by
  rw [nextCell, if_neg hb, loadByte_of_range _ (by exact hs) (by exact hi)]
  simp only [andThen_go]
  rw [emitBit_of_not_ready _ (by exact h)]
  rfl

/-- The gap write, pin ready (R134). -/
theorem gapWrite_of_ready (s : State) (h : s.ports.pinReady = true) :
    gapWrite s = .go { s with blk := { s.blk with txPhase := .gap, lineQ := .low, cnt := 1 } } := by
  rw [gapWrite, setLevel_of_ready _ _ _ (by exact h)]; rfl

/-- The gap write, pin not ready (R134, R201). -/
theorem gapWrite_of_not_ready (s : State) (h : s.ports.pinReady = false) :
    gapWrite s = .raised .gapWrite (faultEntry { s with blk := { s.blk with txPhase := .gap } }) := by
  rw [gapWrite, setLevel_of_not_ready _ _ _ (by exact h)]; rfl

/-- `startIdle` is `tx_start(0)` in the phase IDLE_TX (R165, R166). -/
theorem startIdle_eq (s : State) : startIdle s = txStart 0 { s with blk := { s.blk with runPhase := .idleTx } } := rfl

/-- `StartYield` with `Y = 0` (R165). -/
theorem startYield_of_zero (s : State) (h : s.cfg.yieldUs = 0) : startYield s = startIdle s := by simp [startYield, h]

/-- `StartYield` with `Y ≥ 1` (R165). -/
theorem startYield_of_pos (s : State) (h : s.cfg.yieldUs ≠ 0) :
    startYield s = .go { s with blk := { s.blk with runPhase := .yielding, yieldCnt := 1 } } := by simp [startYield, h]

/-- A bit of the working byte after `k` shifts: "`work_byte[7] = B[7 − j]` for `0 ≤ j ≤ 7`" (R111). -/
theorem sendLevel_shift (b : Byte) (k : Nat) (hk : k < 8) :
    sendLevel (b <<< k) = if b.getLsbD (7 - k) then .high else .low := by
  rw [sendLevel_eq, BitVec.getLsbD_shiftLeft]
  simp [Nat.not_lt.mpr (show k ≤ 7 by omega)]

/-- One more shift. -/
theorem shiftByte_shift (b : Byte) (k : Nat) : shiftByte (b <<< k) = b <<< (k + 1) := by
  simp [shiftByte, BitVec.shiftLeft_add]

end Sys2Proof.Laws
end

