-- ==== Sys2Proof/Laws/Step.lean ====
section
/-! SUPPORT. Once, everything a tick can do: from a state that meets the invariants a tick that is no reset is one of `TickCase`,
and every invariant is derived from that. -/

namespace Sys2Proof.Laws

open Sys2Proof.Machine

/-! ### Small facts -/

/-- When a step takes its tick: under a configuration R7 allows, in a run that starts from RESET or by a reset tick (R222). -/
theorem step_of_wf (s : State) (h : s.cfg.wf) (hs : s.resetSeen = true ∨ s.ports.rst = true) : step s = tick s := by
  simp only [step, guardedTick, if_pos h, Bool.or_eq_true, if_pos hs]

/-- Every state that meets the invariants takes its tick. -/
theorem step_eq_tick (s : State) (hI : StateOk s) : step s = tick s := step_of_wf s hI.cfgWf (.inl hI.wasReset)

theorem step_of_not_wf (s : State) (h : ¬ s.cfg.wf) : step s = .refused .invalidConfig := by
  simp only [step, guardedTick, if_neg h]

/-- Before the first reset a step without one has no meaning (R222). -/
theorem step_of_no_reset (s : State) (h : s.cfg.wf) (hs : s.resetSeen = false) (hr : s.ports.rst = false) :
    step s = .refused .noResetYet := by
  simp [step, guardedTick, if_pos h, hs, hr]

/-- A step that answers has its tick: the run starts from RESET, or this is a reset tick. -/
theorem step_eq_tick_of_next (s t : State) (h : step s = .next t) : step s = tick s := by
  unfold step guardedTick at h ⊢
  split at h
  · rename_i hc
    split at h
    · rename_i hs; rw [if_pos hc, if_pos hs]
    · cases h
  · cases h

/-- A step that answers runs under a configuration R7 allows. -/
theorem cfg_wf_of_step (s t : State) (h : step s = .next t) : s.cfg.wf := by
  refine Decidable.byContradiction fun hc => ?_
  simp [step_of_not_wf s hc] at h

/-- A reset tick (R220). -/
theorem step_of_reset (s : State) (h : s.cfg.wf) (hr : s.ports.rst = true) :
    step s = .next (closeTick (takeReset s)) := by simp [step_of_wf s h (.inr hr), tick, hr]

theorem accepted_eq_some (s : State) (w : Byte) : accepted s = some w ↔
    s.ports.rst = false ∧ s.ports.cmdValid = true ∧ s.blk.mode = .ready ∧ s.ports.cmd = w := by
  unfold accepted
  constructor
  · intro h
    split at h
    · simp_all
    · simp at h
  · rintro ⟨h1, h2, h3, h4⟩; simp [h1, h2, h3, h4]

theorem accepted_eq_none (s : State) : accepted s = none ↔
    ¬(s.ports.rst = false ∧ s.ports.cmdValid = true ∧ s.blk.mode = .ready) := by
  unfold accepted
  constructor
  · intro h; split at h
    · simp at h
    · simp_all
  · intro h; rw [if_neg]; simpa using h

/-- A tick completes a transmission in the gap, after `8·D` ticks (R135). -/
theorem txDone_iff (s : State) : txDone s = true ↔
    s.blk.txActive = true ∧ s.blk.txPhase = .gap ∧ ¬ s.blk.cnt < 8 * s.cfg.bitUs := by
  simp only [txDone, gapElapsed, Bool.and_eq_true, decide_eq_true_eq, Bool.not_eq_true', decide_eq_false_iff_not, and_assoc]
  rfl

theorem lastCell_iff (s : State) : lastCell s = true ↔ s.blk.bitIdx = 7 ∧ s.blk.byteIdx = s.cfg.frameLen - 1 := by
  simp [lastCell]

/-! ### What a tick can do -/

/-- Why a transmission starts in a tick: its slot, and the record as it stands when `tx_start` is called. -/
inductive StartCause (s : State) : Nat → Block → Prop where
  | run (w : Byte) (ha : accepted s = some w) (hd : decode w = .run) :
      StartCause s 0 { s.blk with mode := .run, runPhase := .idleTx }
  | txIdle (w : Byte) (ha : accepted s = some w) (hd : decode w = .txIdle) :
      StartCause s 0 { s.blk with mode := .oneshot, osKind := .idle }
  | txNext (w : Byte) (ha : accepted s = some w) (hd : decode w = .txNext) :
      StartCause s (1 + s.blk.rotIdx) { s.blk with mode := .oneshot, osKind := .pattern }
  | pattern (hm : s.blk.mode = .run) (hp : s.blk.runPhase = .idleTx) (hd : txDone s = true) (hr : rotationDue s = true) :
      StartCause s (1 + s.blk.rotIdx)
        { s.blk with txActive := false, lastPatternMs := nowMs s.blk, runPhase := .patternTx }
  | idleAgain (hm : s.blk.mode = .run) (hp : s.blk.runPhase = .idleTx) (hd : txDone s = true)
      (hr : rotationDue s = false) (hy : s.cfg.yieldUs = 0) :
      StartCause s 0 { s.blk with txActive := false, runPhase := .idleTx }
  | afterPattern (hm : s.blk.mode = .run) (hp : s.blk.runPhase = .patternTx) (hd : txDone s = true)
      (hy : s.cfg.yieldUs = 0) :
      StartCause s 0 { s.blk with
        txActive := false, rotIdx := (s.blk.rotIdx + 1) % s.cfg.numPatterns, runPhase := .idleTx }
  | yieldEnd (hm : s.blk.mode = .run) (hp : s.blk.runPhase = .yielding) (hy : s.blk.yieldCnt = s.cfg.yieldUs) :
      StartCause s 0 { s.blk with runPhase := .idleTx }

/-- The record after part A and part B of a tick that is no reset. -/
inductive TickCase (s : State) : Block → Prop where
  | still (h : (s.blk.mode = .ready ∧ accepted s = none) ∨ s.blk.mode = .halted) : TickCase s s.blk
  | nop (w : Byte) (ha : accepted s = some w) (hd : decode w = .nop) : TickCase s s.blk
  | illegal (w : Byte) (ha : accepted s = some w) (hd : (decode w).isLegal = false) :
      TickCase s { s.blk with cmdErr := true }
  | start (slot : Nat) (b : Block) (hc : StartCause s slot b) (hpin : s.ports.pinReady = true) :
      TickCase s (startedBlock s.cfg slot b)
  | startFails (slot : Nat) (b : Block) (hc : StartCause s slot b) (hpin : s.ports.pinReady = false) :
      TickCase s (failedStartBlock s.cfg slot b)
  | inside (ht : s.blk.txActive = true) (hp : s.blk.txPhase = .bit) (hc : s.blk.cnt < s.cfg.bitUs) :
      TickCase s { s.blk with cnt := s.blk.cnt + 1 }
  | nextBit (ht : s.blk.txActive = true) (hp : s.blk.txPhase = .bit) (hc : s.blk.cnt = s.cfg.bitUs)
      (hb : s.blk.bitIdx < 7) (hpin : s.ports.pinReady = true) :
      TickCase s { s.blk with bitIdx := s.blk.bitIdx + 1, lineQ := sendLevel s.blk.workByte, workByte := shiftByte s.blk.workByte, cnt := 1 }
  | nextBitFails (ht : s.blk.txActive = true) (hp : s.blk.txPhase = .bit) (hc : s.blk.cnt = s.cfg.bitUs)
      (hb : s.blk.bitIdx < 7) (hpin : s.ports.pinReady = false) :
      TickCase s { s.blk with bitIdx := s.blk.bitIdx + 1, fault := true, mode := .halted, txActive := false, lineQ := .low }
  | nextByte (ht : s.blk.txActive = true) (hp : s.blk.txPhase = .bit) (hc : s.blk.cnt = s.cfg.bitUs)
      (hb : s.blk.bitIdx = 7) (hi : s.blk.byteIdx + 1 < s.cfg.frameLen) (hpin : s.ports.pinReady = true) :
      TickCase s { s.blk with byteIdx := s.blk.byteIdx + 1, bitIdx := 0, cnt := 1, lineQ := sendLevel (s.cfg.store.get (frameAddr s.cfg s.blk.txSlot (s.blk.byteIdx + 1))), workByte := shiftByte (s.cfg.store.get (frameAddr s.cfg s.blk.txSlot (s.blk.byteIdx + 1))) }
  | nextByteFails (ht : s.blk.txActive = true) (hp : s.blk.txPhase = .bit) (hc : s.blk.cnt = s.cfg.bitUs)
      (hb : s.blk.bitIdx = 7) (hi : s.blk.byteIdx + 1 < s.cfg.frameLen) (hpin : s.ports.pinReady = false) :
      TickCase s { s.blk with byteIdx := s.blk.byteIdx + 1, bitIdx := 0, workByte := s.cfg.store.get (frameAddr s.cfg s.blk.txSlot (s.blk.byteIdx + 1)), fault := true, mode := .halted, txActive := false, lineQ := .low }
  | gapWrite (ht : s.blk.txActive = true) (hp : s.blk.txPhase = .bit) (hc : s.blk.cnt = s.cfg.bitUs)
      (hb : s.blk.bitIdx = 7) (hi : s.blk.byteIdx + 1 = s.cfg.frameLen) (hpin : s.ports.pinReady = true) :
      TickCase s { s.blk with txPhase := .gap, lineQ := .low, cnt := 1 }
  | gapWriteFails (ht : s.blk.txActive = true) (hp : s.blk.txPhase = .bit) (hc : s.blk.cnt = s.cfg.bitUs)
      (hb : s.blk.bitIdx = 7) (hi : s.blk.byteIdx + 1 = s.cfg.frameLen) (hpin : s.ports.pinReady = false) :
      TickCase s { s.blk with txPhase := .gap, fault := true, mode := .halted, txActive := false, lineQ := .low }
  | gapCount (ht : s.blk.txActive = true) (hp : s.blk.txPhase = .gap) (hc : s.blk.cnt < 8 * s.cfg.bitUs) :
      TickCase s { s.blk with cnt := s.blk.cnt + 1 }
  | oneshotDone (hm : s.blk.mode = .oneshot) (hd : txDone s = true) :
      TickCase s { s.blk with txActive := false, mode := .ready, rotIdx := match s.blk.osKind with | .pattern => (s.blk.rotIdx + 1) % s.cfg.numPatterns | .idle => s.blk.rotIdx }
  | idleThenYield (hm : s.blk.mode = .run) (hp : s.blk.runPhase = .idleTx) (hd : txDone s = true)
      (hr : rotationDue s = false) (hy : s.cfg.yieldUs ≠ 0) :
      TickCase s { s.blk with txActive := false, runPhase := .yielding, yieldCnt := 1 }
  | patternThenYield (hm : s.blk.mode = .run) (hp : s.blk.runPhase = .patternTx) (hd : txDone s = true)
      (hy : s.cfg.yieldUs ≠ 0) :
      TickCase s { s.blk with txActive := false, rotIdx := (s.blk.rotIdx + 1) % s.cfg.numPatterns, runPhase := .yielding, yieldCnt := 1 }
  | yieldCount (hm : s.blk.mode = .run) (hp : s.blk.runPhase = .yielding) (hy : s.blk.yieldCnt < s.cfg.yieldUs) :
      TickCase s { s.blk with yieldCnt := s.blk.yieldCnt + 1 }

/-! ### Part A -/

/-- Part A of a tick with no transmission in progress (R188). -/
theorem partA_of_still (s : State) (h : s.blk.txActive = false) : partA s = .go s := by simp [partA, h]

/-- Part A in the gap (R135). -/
theorem partA_of_gap (s : State) (ht : s.blk.txActive = true) (hp : s.blk.txPhase = .gap) :
    partA s = .go (gapTick s) := by simp [partA, ht, hp]

/-- The gap goes on (R135). -/
theorem gapTick_of_lt (s : State) (h : s.blk.cnt < 8 * s.cfg.bitUs) :
    gapTick s = { s with blk := { s.blk with cnt := s.blk.cnt + 1 } } := by
  simp [gapTick, gapElapsed, gapTicks, gapBits, h, countTick]

/-- The transmission completes (R135). -/
theorem gapTick_of_done (s : State) (h : txDone s = true) :
    gapTick s = { s with blk := { s.blk with txActive := false } } := by
  rw [txDone_iff] at h
  simp [gapTick, gapElapsed, gapTicks, gapBits, h.2.2]

/-- A tick whose part A goes on to part B (R188). -/
theorem tick_of_go (s s' : State) (hr : s.ports.rst = false) (h : partA s = .go s') :
    tick s = closeOutcome (partB s s') := by
  simp [tick, hr, h]

/-- A tick whose part A raised: part B is skipped and part C happens (R188). -/
theorem tick_of_raised (s s' : State) (p : FaultPos) (hr : s.ports.rst = false) (h : partA s = .raised p s') :
    tick s = .next (closeTickC s') := by
  simp [tick, hr, h]

/-- Part B does nothing while a transmission goes on: ONESHOT and RUN wait for `done` (R161, R164, R187). -/
theorem partB_of_busy (s s' : State) (hI : StateOk s) (ht : s.blk.txActive = true) (hd : txDone s = false) :
    partB s s' = .next s' := by
  unfold partB
  cases hm : s.blk.mode
  · simp [hI.stillIdle (.inl hm)] at ht
  · simp [hd]
  · have := (hI.runBusy hm).mp ht
    cases hp : s.blk.runPhase
    · simp [runTick, hd]
    · simp [runTick, hd]
    · exact absurd hp this
  · rfl

/-! ### The tick -/

/-- Shorthand: a tick of this case, closed. -/
theorem case_of_go (s : State) (b : Block) (hI : StateOk s) (hr : s.ports.rst = false)
    (hA : partA s = .go { s with blk := b }) (ht : s.blk.txActive = true) (hd : txDone s = false) :
    step s = .next (closeTickC { s with blk := b }) := by
  rw [step_eq_tick s hI, tick_of_go s _ hr hA, partB_of_busy s _ hI ht hd]
  rfl

/-- Part A in a bit cell (R132-R134). -/
theorem tickCase_of_bit (s : State) (hI : StateOk s) (hr : s.ports.rst = false) (ht : s.blk.txActive = true)
    (hp : s.blk.txPhase = .bit) :
    ∃ b, TickCase s b ∧ step s = .next (closeTickC { s with blk := b }) := by
  have hd : txDone s = false := by simp [txDone, hp]
  have hcnt := hI.bitCnt ht hp
  have hbit := hI.bitRange
  have hbyte := hI.byteRange
  by_cases hc : s.blk.cnt < s.cfg.bitUs
  · exact ⟨_, .inside ht hp hc, case_of_go s _ hI hr (by simp [partA, ht, hp, hc, countTick]) ht hd⟩
  have hc' : s.blk.cnt = s.cfg.bitUs := by omega
  by_cases hl : lastCell s = true
  · have hA : partA s = gapWrite s := by simp [partA, ht, hp, hc, hl]
    rw [lastCell_iff] at hl
    have hi : s.blk.byteIdx + 1 = s.cfg.frameLen := by omega
    cases hpin : s.ports.pinReady
    · exact ⟨_, .gapWriteFails ht hp hc' hl.1 hi hpin, by
        rw [step_eq_tick s hI]
        exact tick_of_raised s _ .gapWrite hr (by rw [hA, gapWrite_of_not_ready s hpin]; rfl)⟩
    · exact ⟨_, .gapWrite ht hp hc' hl.1 hi hpin,
        case_of_go s _ hI hr (by rw [hA, gapWrite_of_ready s hpin]) ht hd⟩
  · have hA : partA s = nextCell s := by simp [partA, ht, hp, hc, hl]
    rw [lastCell_iff] at hl
    by_cases hb : s.blk.bitIdx < 7
    · cases hpin : s.ports.pinReady
      · exact ⟨_, .nextBitFails ht hp hc' hb hpin, by
          rw [step_eq_tick s hI]
          exact tick_of_raised s _ _ hr (by rw [hA, nextCell_bit_of_not_ready s hb hpin]; rfl)⟩
      · exact ⟨_, .nextBit ht hp hc' hb hpin,
          case_of_go s _ hI hr (by rw [hA, nextCell_bit_of_ready s hb hpin]) ht hd⟩
    · have hb' : s.blk.bitIdx = 7 := by omega
      have hi : s.blk.byteIdx + 1 < s.cfg.frameLen := by omega
      cases hpin : s.ports.pinReady
      · exact ⟨_, .nextByteFails ht hp hc' hb' hi hpin, by
          rw [step_eq_tick s hI]
          exact tick_of_raised s _ _ hr (by rw [hA, nextCell_byte_of_not_ready s hb hI.slotRange hi hpin]; rfl)⟩
      · exact ⟨_, .nextByte ht hp hc' hb' hi hpin,
          case_of_go s _ hI hr (by rw [hA, nextCell_byte_of_ready s hb hI.slotRange hi hpin]) ht hd⟩

/-- The record a cause gives `tx_start` keeps the slot in the frame store. -/
theorem StartCause.slot_le {s : State} {slot : Nat} {b : Block} (hI : StateOk s) (h : StartCause s slot b) :
    slot ≤ s.cfg.numPatterns := by
  have := hI.rotRange
  cases h <;> omega

/-- A tick whose last action is a start of a transmission, pin ready (R130). -/
theorem close_txStart_of_ready (slot : Nat) (s : State) (hN : 1 ≤ s.cfg.frameLen) (hs : slot ≤ s.cfg.numPatterns)
    (h : s.ports.pinReady = true) :
    closeOutcome (txStart slot s).outcome = .next (closeTickC { s with blk := startedBlock s.cfg slot s.blk }) := by
  rw [txStart_of_ready slot s hN hs h]; rfl

/-- A tick whose last action is a start of a transmission, pin not ready (R130, R201). -/
theorem close_txStart_of_not_ready (slot : Nat) (s : State) (hN : 1 ≤ s.cfg.frameLen) (hs : slot ≤ s.cfg.numPatterns)
    (h : s.ports.pinReady = false) :
    closeOutcome (txStart slot s).outcome = .next (closeTickC { s with blk := failedStartBlock s.cfg slot s.blk }) := by
  rw [txStart_of_not_ready slot s hN hs h]; rfl

/-- A tick whose part B is one start of a transmission. -/
theorem tickCase_of_start (s : State) (slot : Nat) (b : Block) (hI : StateOk s) (hc : StartCause s slot b)
    (h : step s = closeOutcome (txStart slot { s with blk := b }).outcome) :
    ∃ b, TickCase s b ∧ step s = .next (closeTickC { s with blk := b }) := by
  have hs := hc.slot_le hI
  cases hpin : s.ports.pinReady
  · exact ⟨_, .startFails slot b hc hpin, by
      rw [h]; exact close_txStart_of_not_ready slot { s with blk := b } hI.cfgWf.1 hs hpin⟩
  · exact ⟨_, .start slot b hc hpin, by
      rw [h]; exact close_txStart_of_ready slot { s with blk := b } hI.cfgWf.1 hs hpin⟩

/-- A tick in READY (R180-R186). -/
theorem tickCase_of_ready (s : State) (hI : StateOk s) (hr : s.ports.rst = false) (hm : s.blk.mode = .ready) :
    ∃ b, TickCase s b ∧ step s = .next (closeTickC { s with blk := b }) := by
  have hA := partA_of_still s (hI.stillIdle (.inl hm))
  have hT := tick_of_go s _ hr hA
  rw [← step_eq_tick s hI] at hT
  cases ha : accepted s with
  | none => exact ⟨_, .still (.inl ⟨hm, ha⟩), by rw [hT]; simp [partB, hm, ha, closeOutcome]⟩
  | some w =>
    rw [show partB s s = exec (decode w) s by simp [partB, hm, ha]] at hT
    cases hd : decode w
    case nop => exact ⟨_, .nop w ha hd, by rw [hd] at hT; exact hT⟩
    case run => exact tickCase_of_start s 0 _ hI (.run w ha hd) (by rw [hd] at hT; exact hT)
    case txIdle => exact tickCase_of_start s 0 _ hI (.txIdle w ha hd) (by rw [hd] at hT; exact hT)
    case txNext => exact tickCase_of_start s _ _ hI (.txNext w ha hd) (by rw [hd] at hT; exact hT)
    all_goals exact ⟨_, .illegal w ha (by rw [hd]; rfl), by rw [hT, hd]; rfl⟩

/-- A tick in the gap that goes on (R135). -/
theorem tickCase_of_gap (s : State) (hI : StateOk s) (hr : s.ports.rst = false) (ht : s.blk.txActive = true)
    (hp : s.blk.txPhase = .gap) (hc : s.blk.cnt < 8 * s.cfg.bitUs) :
    ∃ b, TickCase s b ∧ step s = .next (closeTickC { s with blk := b }) :=
  ⟨_, .gapCount ht hp hc, case_of_go s _ hI hr (by rw [partA_of_gap s ht hp, gapTick_of_lt s hc]) ht
    (by simp [txDone, gapElapsed, gapTicks, gapBits, hc])⟩

/-- Part B of a tick that completes an idle send in RUN (R161). -/
theorem partB_of_idleDone (s s' : State) (hm : s.blk.mode = .run) (hp : s.blk.runPhase = .idleTx) (hd : txDone s = true) :
    partB s s' = (rotationCheck s').outcome := by simp [partB, hm, hp, hd, runTick]

/-- Part B of a tick that completes a pattern send in RUN (R164). -/
theorem partB_of_patternDone (s s' : State) (hm : s.blk.mode = .run) (hp : s.blk.runPhase = .patternTx)
    (hd : txDone s = true) : partB s s' = (startYield (advanceRotation s')).outcome := by
  simp [partB, hm, hp, hd, runTick, patternEnd]

/-- The rotation check, its test met (R162). -/
theorem rotationCheck_of_due (s : State) (h : rotationDue s = true) :
    rotationCheck s = txStart (nextSlot s.blk)
      { s with blk := { s.blk with lastPatternMs := nowMs s.blk, runPhase := .patternTx } } := by
  simp [rotationCheck, h]

/-- The rotation check, its test not met (R162). -/
theorem rotationCheck_of_not_due (s : State) (h : rotationDue s = false) : rotationCheck s = startYield s := by
  simp [rotationCheck, h]

/-- A tick that completes a transmission (R135, R161, R164, R187). -/
theorem tickCase_of_done (s : State) (hI : StateOk s) (hr : s.ports.rst = false) (hd : txDone s = true) :
    ∃ b, TickCase s b ∧ step s = .next (closeTickC { s with blk := b }) := by
  obtain ⟨ht, hp, -⟩ := (txDone_iff s).mp hd
  have hT : step s = closeOutcome (partB s (gapTick s)) := by
    rw [step_eq_tick s hI]; exact tick_of_go s _ hr (partA_of_gap s ht hp)
  have hG := gapTick_of_done s hd
  cases hm : s.blk.mode
  · simp [hI.stillIdle (.inl hm)] at ht
  · refine ⟨_, .oneshotDone hm hd, ?_⟩
    rw [hT, hG]
    cases ho : s.blk.osKind <;> simp [partB, hm, hd, oneshotEnd, ho, advanceRotation, closeOutcome]
  · cases hph : s.blk.runPhase
    · rw [partB_of_idleDone s _ hm hph hd] at hT
      cases hr' : rotationDue s
      · rw [rotationCheck_of_not_due _ (by rw [hG]; exact hr'), hG] at hT
        by_cases hy : s.cfg.yieldUs = 0
        · rw [startYield_of_zero _ (by exact hy)] at hT
          exact tickCase_of_start s 0 _ hI (.idleAgain hm hph hd hr' hy) hT
        · rw [startYield_of_pos _ (by exact hy)] at hT
          exact ⟨_, .idleThenYield hm hph hd hr' hy, hT⟩
      · rw [rotationCheck_of_due _ (by rw [hG]; exact hr'), hG] at hT
        exact tickCase_of_start s _ _ hI (.pattern hm hph hd hr') hT
    · rw [partB_of_patternDone s _ hm hph hd, hG] at hT
      by_cases hy : s.cfg.yieldUs = 0
      · rw [startYield_of_zero _ (by exact hy)] at hT
        exact tickCase_of_start s 0 _ hI (.afterPattern hm hph hd hy) hT
      · rw [startYield_of_pos _ (by exact hy)] at hT
        exact ⟨_, .patternThenYield hm hph hd hy, hT⟩
    · exact absurd hph ((hI.runBusy hm).mp ht)
  · simp [hI.stillIdle (.inr hm)] at ht

/-- A tick of the yield (R166). -/
theorem tickCase_of_yield (s : State) (hI : StateOk s) (hr : s.ports.rst = false) (hm : s.blk.mode = .run)
    (hp : s.blk.runPhase = .yielding) :
    ∃ b, TickCase s b ∧ step s = .next (closeTickC { s with blk := b }) := by
  have ht : s.blk.txActive = false := by
    cases ht : s.blk.txActive
    · rfl
    · exact absurd hp ((hI.runBusy hm).mp ht)
  have hT := tick_of_go s _ hr (partA_of_still s ht)
  rw [← step_eq_tick s hI] at hT
  have hy := hI.yieldCnt hm hp
  by_cases hc : s.blk.yieldCnt < s.cfg.yieldUs
  · exact ⟨_, .yieldCount hm hp hc, by rw [hT]; simp [partB, hm, hp, runTick, yieldTick, hc, closeOutcome]⟩
  · refine tickCase_of_start s 0 _ hI (.yieldEnd hm hp (by omega)) ?_
    rw [hT]
    simp only [partB, hm, hp, runTick, yieldTick, if_neg hc, startIdle_eq]

/-- Everything a tick that is no reset can do, from a state that meets the invariants (R188). -/
theorem step_cases (s : State) (hI : StateOk s) (hr : s.ports.rst = false) :
    ∃ b, TickCase s b ∧ step s = .next (closeTickC { s with blk := b }) := by
  by_cases ht : s.blk.txActive = true
  · cases hp : s.blk.txPhase
    · exact tickCase_of_bit s hI hr ht hp
    · by_cases hc : s.blk.cnt < 8 * s.cfg.bitUs
      · exact tickCase_of_gap s hI hr ht hp hc
      · exact tickCase_of_done s hI hr ((txDone_iff s).mpr ⟨ht, hp, hc⟩)
  · cases hm : s.blk.mode
    · exact tickCase_of_ready s hI hr hm
    · exact absurd (hI.oneshotBusy hm) ht
    · refine tickCase_of_yield s hI hr hm ?_
      exact Decidable.byContradiction fun hp => ht ((hI.runBusy hm).mpr hp)
    · refine ⟨_, .still (.inr hm), ?_⟩
      rw [step_eq_tick s hI, tick_of_go s _ hr (partA_of_still s (by simpa using ht))]
      simp [partB, hm, closeOutcome]

/-- What a step that answers has done: reset, or one of the cases (R188). -/
theorem step_next_cases (s t : State) (hI : StateOk s) (h : step s = .next t) :
    (s.ports.rst = true ∧ t = closeTick (takeReset s)) ∨
    (s.ports.rst = false ∧ ∃ b, TickCase s b ∧ t = closeTickC { s with blk := b }) := by
  cases hr : s.ports.rst
  · obtain ⟨b, hb, hs⟩ := step_cases s hI hr
    exact .inr ⟨rfl, b, hb, by rw [h] at hs; exact Host.Outcome.next.inj hs⟩
  · rw [step_of_reset s hI.cfgWf hr] at h
    exact .inl ⟨rfl, (Host.Outcome.next.inj h).symm⟩

/-! ### Runs -/

@[simp] theorem steps_zero (s : State) : steps 0 s = .next s := rfl

theorem steps_succ (n : Nat) (s : State) :
    steps (n + 1) s = match step s with
      | .next t => steps n t
      | .fault f => .fault f
      | .refused r => .refused r := by
  unfold steps
  cases h : step s <;> simp only [Host.Core.run] <;> rw [show Sys2Proof.core.step s = _ from h] <;> rfl

theorem steps_succ_of_next (n : Nat) (s t : State) (h : step s = .next t) : steps (n + 1) s = steps n t := by
  rw [steps_succ, h]

/-- A run of `m + n` ticks is a run of `m` and then a run of `n`. -/
theorem steps_add (m n : Nat) (s t : State) (h : steps m s = .next t) : steps (m + n) s = steps n t := by
  induction m generalizing s with
  | zero => simp at h; subst h; simp
  | succ m ih =>
    rw [Nat.add_right_comm, steps_succ]
    rw [steps_succ] at h
    cases hs : step s with
    | next u => simp only [hs] at h; exact ih u h
    | fault f => simp [hs] at h
    | refused r => simp [hs] at h

@[simp] theorem inputsAt_zero (s : State) : inputsAt s 0 = s.ports := rfl

/-- The inputs of a later tick, seen from the state after the first. -/
theorem inputsAt_of_feed (s t : State) (hp : t.ports = s.feed.headD Inputs.quiet) (hf : t.feed = s.feed.tail) (k : Nat) :
    inputsAt t k = inputsAt s (k + 1) := by
  unfold inputsAt
  rw [hp, hf]
  cases s.feed with
  | nil => cases k <;> simp
  | cons i r => simp

end Sys2Proof.Laws
end

