-- ==== Sys2Proof/Laws/Frame.lean ====
section
/-! SUPPORT. What no action of a tick changes: the configuration, the ports, the inputs to come, the pad, the draws, `now_us`
and the mark of a run from RESET. From it, what every step does to them, whatever the state. -/

namespace Sys2Proof.Laws

open Sys2Proof.Machine

/-- `t` has the configuration, ports, inputs to come, pad, draws, time and mark of a run from RESET of `s`. -/
structure SameAround (s t : State) : Prop where
  cfg : t.cfg = s.cfg
  ports : t.ports = s.ports
  feed : t.feed = s.feed
  pad : t.pad = s.pad
  padDraws : t.padDraws = s.padDraws
  nowUs : t.blk.nowUs = s.blk.nowUs
  resetSeen : t.resetSeen = s.resetSeen

theorem SameAround.refl (s : State) : SameAround s s := ⟨rfl, rfl, rfl, rfl, rfl, rfl, rfl⟩

theorem SameAround.trans {s t u : State} (h : SameAround s t) (k : SameAround t u) : SameAround s u :=
  ⟨k.cfg.trans h.cfg, k.ports.trans h.ports, k.feed.trans h.feed, k.pad.trans h.pad, k.padDraws.trans h.padDraws,
    k.nowUs.trans h.nowUs, k.resetSeen.trans h.resetSeen⟩

/-- An action leaves all that alone, whatever it ends in. -/
def ActFrame (s : State) : Act → Prop
  | .go t => SameAround s t
  | .raised _ t => SameAround s t
  | .stop _ => True

/-- An outcome's next state leaves all that alone. -/
def OutcomeFrame (s : State) (o : Host.Outcome State Fault Refusal) : Prop := ∀ t, o = .next t → SameAround s t

theorem ActFrame.outcome {s : State} {a : Act} (h : ActFrame s a) : OutcomeFrame s a.outcome := by
  intro t ht
  cases a <;> simp only [Act.outcome, Host.Outcome.next.injEq, reduceCtorEq] at ht
  · exact ht ▸ h
  · exact ht ▸ h

theorem ActFrame.of_same {s s' : State} {a : Act} (h : ActFrame s' a) (e : SameAround s s') : ActFrame s a := by
  cases a
  · exact e.trans h
  · exact e.trans h
  · trivial

theorem actFrame_andThen {s : State} {a : Act} {f : State → Act} (h : ActFrame s a) (hf : ∀ t, ActFrame t (f t)) :
    ActFrame s (a.andThen f) := by
  cases a with
  | go t => exact .of_same (hf t) h
  | raised p t => exact h
  | stop e => trivial

/-- A record that keeps `now_us`. -/
theorem sameAround_blk (s : State) (b : Block) (h : b.nowUs = s.blk.nowUs) : SameAround s { s with blk := b } :=
  ⟨rfl, rfl, rfl, rfl, rfl, h, rfl⟩

theorem setLevel_frame (l : Level) (p : FaultPos) (s : State) : ActFrame s (setLevel l p s) := by
  unfold setLevel raiseHardwareFault
  split
  · exact sameAround_blk s _ rfl
  · exact sameAround_blk s _ rfl

theorem emitBit_frame (s : State) : ActFrame s (emitBit s) :=
  actFrame_andThen (setLevel_frame _ _ s) fun t => sameAround_blk t _ rfl

theorem loadByte_frame (s : State) : ActFrame s (loadByte s) := by
  unfold loadByte
  split
  · exact sameAround_blk s _ rfl
  · trivial

theorem txStart_frame (slot : Nat) (s : State) : ActFrame s (txStart slot s) :=
  actFrame_andThen (.of_same (loadByte_frame _) (sameAround_blk s _ rfl)) emitBit_frame

theorem nextCell_frame (s : State) : ActFrame s (nextCell s) := by
  unfold nextCell
  split
  · exact .of_same (emitBit_frame _) (sameAround_blk s _ rfl)
  · exact actFrame_andThen (.of_same (loadByte_frame _) (sameAround_blk s _ rfl)) emitBit_frame

theorem gapWrite_frame (s : State) : ActFrame s (gapWrite s) :=
  actFrame_andThen (.of_same (setLevel_frame _ _ _) (sameAround_blk s _ rfl)) fun t => sameAround_blk t _ rfl

theorem gapTick_frame (s : State) : SameAround s (gapTick s) := by
  unfold gapTick
  split
  · exact sameAround_blk s _ rfl
  · exact sameAround_blk s _ rfl

theorem partA_frame (s : State) : ActFrame s (partA s) := by
  unfold partA
  split
  · split
    · split
      · exact sameAround_blk s _ rfl
      · split
        · exact gapWrite_frame s
        · exact nextCell_frame s
    · exact gapTick_frame s
  · exact .refl s

theorem startYield_frame (s : State) : ActFrame s (startYield s) := by
  unfold startYield
  split
  · exact .of_same (txStart_frame _ _) (sameAround_blk s _ rfl)
  · exact sameAround_blk s _ rfl

theorem runTick_frame (p : RunPhase) (d : Bool) (s : State) : ActFrame s (runTick p d s) := by
  unfold runTick rotationCheck yieldTick
  split
  · split
    · split
      · exact .of_same (txStart_frame _ _) (sameAround_blk s _ rfl)
      · exact startYield_frame s
    · exact .refl s
  · split
    · exact .of_same (startYield_frame _) (sameAround_blk s _ rfl)
    · exact .refl s
  · split
    · exact sameAround_blk s _ rfl
    · exact .of_same (txStart_frame _ _) (sameAround_blk s _ rfl)

/-- What no command changes (R182-R186). -/
theorem exec_frame (i : Instr) (s : State) : OutcomeFrame s (exec i s) := by
  cases i
  case nop => intro t ht; cases ht; exact .refl s
  case run =>
    exact (ActFrame.of_same (txStart_frame idleSlot { s with blk := { s.blk with mode := .run, runPhase := .idleTx } }) (sameAround_blk s _ rfl)).outcome
  case txIdle =>
    exact (ActFrame.of_same (txStart_frame idleSlot { s with blk := { s.blk with mode := .oneshot, osKind := .idle } }) (sameAround_blk s _ rfl)).outcome
  case txNext =>
    exact (ActFrame.of_same (txStart_frame (nextSlot s.blk) { s with blk := { s.blk with mode := .oneshot, osKind := .pattern } }) (sameAround_blk s _ rfl)).outcome
  all_goals (intro t ht; cases ht; exact sameAround_blk s _ rfl)

theorem oneshotEnd_frame (s : State) : SameAround s (oneshotEnd s) := by
  unfold oneshotEnd
  cases s.blk.osKind
  · exact sameAround_blk s _ rfl
  · exact sameAround_blk s _ rfl

theorem partB_frame (s s' : State) : OutcomeFrame s' (partB s s') := by
  unfold partB
  split
  · split
    · exact exec_frame _ _
    · intro t ht; cases ht; exact .refl s'
  · intro t ht; cases ht
    split
    · exact oneshotEnd_frame s'
    · exact .refl s'
  · exact (runTick_frame _ _ _).outcome
  · intro t ht; cases ht; exact .refl s'

/-- Every step that answers, from any state: a reset tick, or parts A and B, which leave all around the record alone, and then part C
(R188). -/
theorem step_next_frame (s t : State) (h : step s = .next t) :
    (s.ports.rst = true ∧ t = closeTick (takeReset s)) ∨
    (s.ports.rst = false ∧ ∃ u, t = closeTickC u ∧ SameAround s u) := by
  have hw := cfg_wf_of_step s t h
  cases hr : s.ports.rst
  · refine .inr ⟨rfl, ?_⟩
    rw [step_eq_tick_of_next s t h] at h
    have hA := partA_frame s
    cases ha : partA s with
    | go u =>
      rw [tick_of_go s u hr ha] at h
      rw [ha] at hA
      cases hb : partB s u with
      | next v =>
        rw [hb] at h
        exact ⟨v, (Host.Outcome.next.inj h).symm, SameAround.trans hA (partB_frame s u v hb)⟩
      | fault f => rw [hb] at h; cases h
      | refused r => rw [hb] at h; cases h
    | raised p u =>
      rw [tick_of_raised s u p hr ha] at h
      rw [ha] at hA
      exact ⟨u, (Host.Outcome.next.inj h).symm, hA⟩
    | stop f => simp [tick, hr, ha] at h
  · rw [step_of_reset s hw hr] at h
    exact .inl ⟨rfl, (Host.Outcome.next.inj h).symm⟩

/-- A step that answers belongs to a run that starts from RESET, and leaves the mark set (R222). -/
theorem step_next_resetSeen (s t : State) (h : step s = .next t) :
    (s.resetSeen = true ∨ s.ports.rst = true) ∧ t.resetSeen = true := by
  have hs : s.resetSeen = true ∨ s.ports.rst = true := by
    refine Decidable.byContradiction fun hn => ?_
    simp only [not_or, Bool.not_eq_true] at hn
    rw [step_of_no_reset s (cfg_wf_of_step s t h) hn.1 hn.2] at h
    cases h
  refine ⟨hs, ?_⟩
  rcases step_next_frame s t h with ⟨_, rfl⟩ | ⟨hr, u, rfl, hu⟩
  · simp
  · simpa [hu.resetSeen, hr] using hs

/-- The ports and the inputs to come after any step. -/
theorem step_next_inputs (s t : State) (h : step s = .next t) :
    t.ports = s.feed.headD Inputs.quiet ∧ t.feed = s.feed.tail := by
  rcases step_next_frame s t h with ⟨_, rfl⟩ | ⟨_, u, rfl, hu⟩
  · simp
  · simp [hu.feed]

/-- The inputs of a later tick, seen from the state after any step. -/
theorem inputsAt_step (s t : State) (h : step s = .next t) (k : Nat) : inputsAt t k = inputsAt s (k + 1) :=
  inputsAt_of_feed s t (step_next_inputs s t h).1 (step_next_inputs s t h).2 k

end Sys2Proof.Laws
end

