-- ==== Sys2Proof/Laws/Memory.lean ====
section
/-! SUPPORT. The laws of the frame store: reading after setting a byte, and that every operation keeps the canonical form. -/

namespace Sys2Proof.Laws

@[simp] theorem get_nil (a : Nat) : Memory.get [] a = Memory.unlisted := rfl

/-- An address below every listed one reads as unlisted. -/
theorem get_of_lt_all (m : Memory) (a : Nat) (h : ∀ c ∈ m, a < c.1) : m.get a = Memory.unlisted := by
  induction m with
  | nil => rfl
  | cons c m ih =>
    have hc := h c (by simp)
    simp only [Memory.get, if_neg (show c.1 ≠ a by omega)]
    exact ih fun x hx => h x (by simp [hx])

theorem get_insert (m : Memory) (a b) (x : Nat) :
    (Memory.insert m a b).get x = if x = a then b else m.get x := by
  induction m with
  | nil => simp [Memory.insert, Memory.get, eq_comm]
  | cons c m ih =>
    by_cases hx : x = a
    · subst hx
      simp only [Memory.insert]
      split
      · simp [Memory.get]
      · split
        · simp [Memory.get]
        · rename_i h1 h2
          simp [Memory.get, Ne.symm h2, ih]
    · simp only [Memory.insert]
      split
      · simp [Memory.get, Ne.symm hx]
      · split
        · rename_i h1 h2
          simp [Memory.get, Ne.symm hx, ← h2]
        · simp [Memory.get, ih, hx]

theorem get_erase (m : Memory) (hm : m.Pairwise (fun x y => x.1 < y.1)) (a x : Nat) :
    (Memory.erase m a).get x = if x = a then Memory.unlisted else m.get x := by
  induction m with
  | nil => simp [Memory.erase]
  | cons c m ih =>
    rw [List.pairwise_cons] at hm
    simp only [Memory.erase]
    split
    · rename_i h
      by_cases hx : x = a
      · subst hx
        simpa using get_of_lt_all m x fun y hy => h ▸ hm.1 y hy
      · simp [Memory.get, h, hx, Ne.symm hx]
    · rename_i h
      by_cases hx : x = a
      · subst hx; simp [Memory.get, h, ih hm.2]
      · simp [Memory.get, ih hm.2, hx]

/-- A read after a write: the byte written at its address, and every other byte as before. -/
theorem get_put (m : Memory) (hm : m.wf) (a b) (x : Nat) :
    (m.put a b).get x = if x = a then b else m.get x := by
  unfold Memory.put
  split
  · rename_i h; rw [get_erase m hm.1, h]
  · exact get_insert m a b x

theorem mem_insert {m : Memory} {a b} {c : Host.Cell} (h : c ∈ Memory.insert m a b) : c = (a, b) ∨ c ∈ m := by
  induction m with
  | nil => simpa [Memory.insert] using h
  | cons d m ih =>
    simp only [Memory.insert] at h
    split at h
    · simpa using h
    · split at h
      · rcases List.mem_cons.mp h with h | h <;> simp [h]
      · rcases List.mem_cons.mp h with h | h
        · simp [h]
        · rcases ih h with h | h <;> simp [h]

theorem mem_erase {m : Memory} {a} {c : Host.Cell} (h : c ∈ Memory.erase m a) : c ∈ m := by
  induction m with
  | nil => exact h
  | cons d m ih =>
    simp only [Memory.erase] at h
    split at h
    · simp [h]
    · rcases List.mem_cons.mp h with h | h
      · simp [h]
      · simp [ih h]

theorem insert_wf (m : Memory) (hm : m.wf) (a) (b : Byte) (hb : b ≠ Memory.unlisted) : (Memory.insert m a b).wf := by
  refine ⟨?_, fun c hc => ?_⟩
  · have hp := hm.1
    clear hm
    induction m with
    | nil => simp [Memory.insert]
    | cons c m ih =>
      rw [List.pairwise_cons] at hp
      simp only [Memory.insert]
      split
      · rename_i h
        rw [List.pairwise_cons, List.pairwise_cons]
        refine ⟨fun x hx => ?_, hp⟩
        rcases List.mem_cons.mp hx with hx | hx
        · simpa [hx] using h
        · exact Nat.lt_trans h (hp.1 x hx)
      · split
        · rename_i h
          rw [List.pairwise_cons]
          exact ⟨fun x hx => by simpa [h] using hp.1 x hx, hp.2⟩
        · rename_i h1 h2
          rw [List.pairwise_cons]
          refine ⟨fun x hx => ?_, ih hp.2⟩
          rcases mem_insert hx with hx | hx
          · subst hx; show c.1 < a; omega
          · exact hp.1 x hx
  · rcases mem_insert hc with hc | hc
    · simpa [hc] using hb
    · exact hm.2 c hc

theorem erase_wf (m : Memory) (hm : m.wf) (a : Nat) : (Memory.erase m a).wf := by
  refine ⟨?_, fun c hc => hm.2 c (mem_erase hc)⟩
  have hp := hm.1
  clear hm
  induction m with
  | nil => exact hp
  | cons c m ih =>
    rw [List.pairwise_cons] at hp
    simp only [Memory.erase]
    split
    · exact hp.2
    · rw [List.pairwise_cons]
      exact ⟨fun x hx => hp.1 x (mem_erase hx), ih hp.2⟩

/-- Setting a byte keeps the canonical form. -/
theorem put_wf (m : Memory) (hm : m.wf) (a b) : (m.put a b).wf := by
  unfold Memory.put
  split
  · exact erase_wf m hm a
  · rename_i h; exact insert_wf m hm a b h

/-- Loading bytes keeps the canonical form. -/
theorem load_wf (bs : List Byte) : ∀ (m : Memory) (a : Nat), m.wf → (m.load a bs).wf := by
  induction bs with
  | nil => exact fun m a hm => hm
  | cons b bs ih => exact fun m a hm => ih _ _ (put_wf m hm a b)

/-- A loaded byte reads back at its address, and an address outside the loaded ones reads as before. -/
theorem get_load (bs : List Byte) : ∀ (m : Memory) (a x : Nat), m.wf →
    (m.load a bs).get x = if a ≤ x ∧ x < a + bs.length then bs.getD (x - a) Memory.unlisted else m.get x := by
  induction bs with
  | nil => intro m a x hm; simp only [Memory.load, List.length_nil]; rw [if_neg (by omega)]
  | cons b bs ih =>
    intro m a x hm
    rw [Memory.load, ih _ _ _ (put_wf m hm a b), get_put m hm]
    simp only [List.length_cons]
    by_cases hx : x = a
    · subst hx; rw [if_neg (by omega), if_pos rfl, if_pos (by omega)]; simp
    · by_cases h : a + 1 ≤ x ∧ x < a + 1 + bs.length
      · have h' : a ≤ x ∧ x < a + (bs.length + 1) := by omega
        have e : x - a = (x - (a + 1)) + 1 := by omega
        rw [if_pos h, if_pos h', e, List.getD_cons_succ]
      · have h' : ¬(a ≤ x ∧ x < a + (bs.length + 1)) := by omega
        rw [if_neg h, if_neg h', if_neg hx]

theorem empty_wf : Memory.wf [] := by simp [Memory.wf]

/-- A listed address is one of those that were listed or loaded. -/
theorem mem_load (bs : List Byte) : ∀ (m : Memory) (a : Nat) (c : Host.Cell),
    c ∈ m.load a bs → c ∈ m ∨ (a ≤ c.1 ∧ c.1 < a + bs.length) := by
  induction bs with
  | nil => exact fun m a c h => .inl h
  | cons b bs ih =>
    intro m a c h
    rw [Memory.load] at h
    simp only [List.length_cons]
    rcases ih _ _ _ h with h | h
    · unfold Memory.put at h
      split at h
      · exact .inl (mem_erase h)
      · rcases mem_insert h with h | h
        · subst h; exact .inr ⟨Nat.le_refl _, by show a < _; omega⟩
        · exact .inl h
    · exact .inr (by omega)

end Sys2Proof.Laws
end

