-- ==== Sys2Proof/Laws/PerInstr.lean ====
section
/-! SUPPORT. The opcode table's rows, per instruction: an instruction's word is its row's, and every word of the row decodes to an
instruction of the row (30_encoding.md R71, R72). -/

namespace Sys2Proof.Laws.TableRow

/-- The instruction's word has its row's fixed bits, and the decoder gives every word that has them to that row. -/
def Statement (i : Instr) : Prop :=
  encode i &&& (tableRow i).mask = (tableRow i).pattern ∧
  ∀ w : Byte, w &&& (tableRow i).mask = (tableRow i).pattern → tableRow (decode w) = tableRow i

theorem nop : Statement .nop := by unfold Statement; decide
theorem run : Statement .run := by unfold Statement; decide
theorem txIdle : Statement .txIdle := by unfold Statement; decide
theorem txNext : Statement .txNext := by unfold Statement; decide
theorem reservedOp4 (m : BitVec 4) : Statement (.reservedOp4 m) :=
  ⟨by revert m; decide, by show ∀ w : Byte, w &&& 0xF0#8 = 0x40#8 → tableRow (decode w) = tableRow (.reservedOp4 0); decide⟩
theorem reservedOp5 (m : BitVec 4) : Statement (.reservedOp5 m) :=
  ⟨by revert m; decide, by show ∀ w : Byte, w &&& 0xF0#8 = 0x50#8 → tableRow (decode w) = tableRow (.reservedOp5 0); decide⟩
theorem reservedOp6 (m : BitVec 4) : Statement (.reservedOp6 m) :=
  ⟨by revert m; decide, by show ∀ w : Byte, w &&& 0xF0#8 = 0x60#8 → tableRow (decode w) = tableRow (.reservedOp6 0); decide⟩
theorem reservedOp7 (m : BitVec 4) : Statement (.reservedOp7 m) :=
  ⟨by revert m; decide, by show ∀ w : Byte, w &&& 0xF0#8 = 0x70#8 → tableRow (decode w) = tableRow (.reservedOp7 0); decide⟩
theorem reservedOp8 (m : BitVec 4) : Statement (.reservedOp8 m) :=
  ⟨by revert m; decide, by show ∀ w : Byte, w &&& 0xF0#8 = 0x80#8 → tableRow (decode w) = tableRow (.reservedOp8 0); decide⟩
theorem reservedOp9 (m : BitVec 4) : Statement (.reservedOp9 m) :=
  ⟨by revert m; decide, by show ∀ w : Byte, w &&& 0xF0#8 = 0x90#8 → tableRow (decode w) = tableRow (.reservedOp9 0); decide⟩
theorem reservedOpA (m : BitVec 4) : Statement (.reservedOpA m) :=
  ⟨by revert m; decide, by show ∀ w : Byte, w &&& 0xF0#8 = 0xA0#8 → tableRow (decode w) = tableRow (.reservedOpA 0); decide⟩
theorem reservedOpB (m : BitVec 4) : Statement (.reservedOpB m) :=
  ⟨by revert m; decide, by show ∀ w : Byte, w &&& 0xF0#8 = 0xB0#8 → tableRow (decode w) = tableRow (.reservedOpB 0); decide⟩
theorem reservedOpC (m : BitVec 4) : Statement (.reservedOpC m) :=
  ⟨by revert m; decide, by show ∀ w : Byte, w &&& 0xF0#8 = 0xC0#8 → tableRow (decode w) = tableRow (.reservedOpC 0); decide⟩
theorem reservedOpD (m : BitVec 4) : Statement (.reservedOpD m) :=
  ⟨by revert m; decide, by show ∀ w : Byte, w &&& 0xF0#8 = 0xD0#8 → tableRow (decode w) = tableRow (.reservedOpD 0); decide⟩
theorem reservedOpE (m : BitVec 4) : Statement (.reservedOpE m) :=
  ⟨by revert m; decide, by show ∀ w : Byte, w &&& 0xF0#8 = 0xE0#8 → tableRow (decode w) = tableRow (.reservedOpE 0); decide⟩
theorem reservedOpF (m : BitVec 4) : Statement (.reservedOpF m) :=
  ⟨by revert m; decide, by show ∀ w : Byte, w &&& 0xF0#8 = 0xF0#8 → tableRow (decode w) = tableRow (.reservedOpF 0); decide⟩
theorem reservedMbzOp0_1xxx (m : BitVec 3) : Statement (.reservedMbzOp0_1xxx m) :=
  ⟨by revert m; decide, by show ∀ w : Byte, w &&& 0xF8#8 = 0x08#8 → tableRow (decode w) = tableRow (.reservedMbzOp0_1xxx 0); decide⟩
theorem reservedMbzOp0_01xx (m : BitVec 2) : Statement (.reservedMbzOp0_01xx m) :=
  ⟨by revert m; decide, by show ∀ w : Byte, w &&& 0xFC#8 = 0x04#8 → tableRow (decode w) = tableRow (.reservedMbzOp0_01xx 0); decide⟩
theorem reservedMbzOp0_001x (m : BitVec 1) : Statement (.reservedMbzOp0_001x m) :=
  ⟨by revert m; decide, by show ∀ w : Byte, w &&& 0xFE#8 = 0x02#8 → tableRow (decode w) = tableRow (.reservedMbzOp0_001x 0); decide⟩
theorem reservedMbzOp0_0001 : Statement .reservedMbzOp0_0001 := by unfold Statement; decide
theorem reservedMbzOp1_1xxx (m : BitVec 3) : Statement (.reservedMbzOp1_1xxx m) :=
  ⟨by revert m; decide, by show ∀ w : Byte, w &&& 0xF8#8 = 0x18#8 → tableRow (decode w) = tableRow (.reservedMbzOp1_1xxx 0); decide⟩
theorem reservedMbzOp1_01xx (m : BitVec 2) : Statement (.reservedMbzOp1_01xx m) :=
  ⟨by revert m; decide, by show ∀ w : Byte, w &&& 0xFC#8 = 0x14#8 → tableRow (decode w) = tableRow (.reservedMbzOp1_01xx 0); decide⟩
theorem reservedMbzOp1_001x (m : BitVec 1) : Statement (.reservedMbzOp1_001x m) :=
  ⟨by revert m; decide, by show ∀ w : Byte, w &&& 0xFE#8 = 0x12#8 → tableRow (decode w) = tableRow (.reservedMbzOp1_001x 0); decide⟩
theorem reservedMbzOp1_0001 : Statement .reservedMbzOp1_0001 := by unfold Statement; decide
theorem reservedMbzOp2_1xxx (m : BitVec 3) : Statement (.reservedMbzOp2_1xxx m) :=
  ⟨by revert m; decide, by show ∀ w : Byte, w &&& 0xF8#8 = 0x28#8 → tableRow (decode w) = tableRow (.reservedMbzOp2_1xxx 0); decide⟩
theorem reservedMbzOp2_01xx (m : BitVec 2) : Statement (.reservedMbzOp2_01xx m) :=
  ⟨by revert m; decide, by show ∀ w : Byte, w &&& 0xFC#8 = 0x24#8 → tableRow (decode w) = tableRow (.reservedMbzOp2_01xx 0); decide⟩
theorem reservedMbzOp2_001x (m : BitVec 1) : Statement (.reservedMbzOp2_001x m) :=
  ⟨by revert m; decide, by show ∀ w : Byte, w &&& 0xFE#8 = 0x22#8 → tableRow (decode w) = tableRow (.reservedMbzOp2_001x 0); decide⟩
theorem reservedMbzOp2_0001 : Statement .reservedMbzOp2_0001 := by unfold Statement; decide
theorem reservedMbzOp3_1xxx (m : BitVec 3) : Statement (.reservedMbzOp3_1xxx m) :=
  ⟨by revert m; decide, by show ∀ w : Byte, w &&& 0xF8#8 = 0x38#8 → tableRow (decode w) = tableRow (.reservedMbzOp3_1xxx 0); decide⟩
theorem reservedMbzOp3_01xx (m : BitVec 2) : Statement (.reservedMbzOp3_01xx m) :=
  ⟨by revert m; decide, by show ∀ w : Byte, w &&& 0xFC#8 = 0x34#8 → tableRow (decode w) = tableRow (.reservedMbzOp3_01xx 0); decide⟩
theorem reservedMbzOp3_001x (m : BitVec 1) : Statement (.reservedMbzOp3_001x m) :=
  ⟨by revert m; decide, by show ∀ w : Byte, w &&& 0xFE#8 = 0x32#8 → tableRow (decode w) = tableRow (.reservedMbzOp3_001x 0); decide⟩
theorem reservedMbzOp3_0001 : Statement .reservedMbzOp3_0001 := by unfold Statement; decide

end Sys2Proof.Laws.TableRow
end

