-- ==== Sys2Proof/Tests/Slice0.lean ====
section
/-! SUPPORT. The model's own tests: ill-formed configurations refused, every row of the opcode table decoded from a word written out
from it, single steps with the results the spec gives, and for every statement with hypotheses a state that meets them. -/

namespace Sys2Proof.Tests

open Sys2Proof.Machine

/-! ### Small configurations and states -/

/-- `N = 2`, `P = 2`, `D = 1`, `R = 0`, `Y = 2`, with `IDLE = [0xA5, 0x00]` and `PAT = [[0xAA, 0x01], [0x0F, 0xF0]]`. -/
def small : Config :=
  { frameLen := 2, numPatterns := 2, bitUs := 1, rotMs := 0, yieldUs := 2
    store := [(0, 0xA5#8), (2, 0xAA#8), (3, 0x01#8), (4, 0x0F#8), (5, 0xF0#8)] }

/-- `small` with `D = 3`. -/
def slow : Config := { small with bitUs := 3 }

/-- `small` with `Y = 0`. -/
def noYield : Config := { small with yieldUs := 0 }

/-- `N = 1`, `P = 1`, `D = 1`, `R = 0`, `Y = 0`. -/
def tiny : Config :=
  { frameLen := 1, numPatterns := 1, bitUs := 1, rotMs := 0, yieldUs := 0, store := [(0, 0x80#8), (1, 0x01#8)] }

/-- A tick with nothing presented. -/
def calm (pin : Bool) : Inputs := { Inputs.quiet with pinReady := pin }

/-- READY, with a word presented. -/
def readyWith (c : Config) (w : Byte) (pin : Bool) : State :=
  { State.boot c with ports := { rst := false, cmdValid := true, cmd := w, pinReady := pin } }

/-- In a bit cell of a slot, the line and the working byte as the encoder has them. -/
def busy (c : Config) (m : Mode) (rp : RunPhase) (slot byteIdx bitIdx cnt : Nat) (pin : Bool) : State :=
  let b := c.store.get (frameAddr c slot byteIdx)
  { State.boot c with
    ports := calm pin
    blk := { Block.reset with
      lineQ := Level.ofBool (b.getLsbD (7 - bitIdx)), txActive := true, txSlot := slot, byteIdx := byteIdx,
      bitIdx := bitIdx, workByte := b <<< (bitIdx + 1), cnt := cnt, mode := m, runPhase := rp,
      osKind := if slot = 0 then .idle else .pattern } }

/-- In the gap after a slot's frame, `now` µs after reset. -/
def inGap (c : Config) (m : Mode) (rp : RunPhase) (slot cnt : Nat) (pin : Bool) (now : Nat) : State :=
  { State.boot c with
    ports := calm pin
    blk := { Block.reset with
      nowUs := BitVec.ofNat 64 now, txActive := true, txPhase := .gap, txSlot := slot, byteIdx := c.frameLen - 1,
      bitIdx := 7, cnt := cnt, mode := m, runPhase := rp, osKind := if slot = 0 then .idle else .pattern } }

/-- In the yield. -/
def yieldingAt (c : Config) (n : Nat) (pin : Bool) : State :=
  { State.boot c with
    ports := calm pin
    blk := { Block.reset with mode := .run, runPhase := .yielding, yieldCnt := n } }

/-- At power-on, with a record that is not RESET's. -/
def powerOnWith (i : Inputs) : State :=
  { State.powerOn small { Block.reset with mode := .run, runPhase := .yielding, yieldCnt := 1, rotIdx := 7 } with ports := i }

/-- Halted at cell 0. -/
def haltedIn (c : Config) (i : Inputs) : State :=
  { State.boot c with ports := i, blk := { Block.reset with mode := .halted, fault := true, workByte := 0xA5#8 } }

/-- The state a step gives, or the state itself where it gives none. -/
def stepped (s : State) : State :=
  match step s with
  | .next t => t
  | .fault _ | .refused _ => s

/-- Whether a step gives a next state. -/
def answers (s : State) : Bool :=
  match step s with
  | .next _ => true
  | .fault _ | .refused _ => false

theorem step_of_answers (s : State) (h : answers s = true) : step s = .next (stepped s) := by
  unfold answers at h
  unfold stepped
  cases hs : step s with
  | next t => rfl
  | fault f => rw [hs] at h; cases h
  | refused r => rw [hs] at h; cases h

/-- The record a command leaves in part B. -/
def afterExec (i : Instr) (s : State) : Block :=
  match exec i s with
  | .next t => t.blk
  | .fault _ | .refused _ => s.blk

/-- The state `n` ticks later, or the state itself where a step stops. -/
def after (n : Nat) (s : State) : State :=
  match steps n s with
  | .next t => t
  | .fault _ | .refused _ => s

/-- Whether `n` steps give a next state. -/
def answersFor (n : Nat) (s : State) : Bool :=
  match steps n s with
  | .next _ => true
  | .fault _ | .refused _ => false

theorem steps_of_answersFor (n : Nat) (s : State) (h : answersFor n s = true) : steps n s = .next (after n s) := by
  unfold answersFor at h
  unfold after
  cases hs : steps n s with
  | next t => rfl
  | fault f => rw [hs] at h; cases h
  | refused r => rw [hs] at h; cases h

/-! ### Well-formedness (00_scope.md R7): each check refuses an ill-formed configuration -/

theorem test_wf_small : small.wf ∧ slow.wf ∧ noYield.wf ∧ tiny.wf ∧ Config.initial.wf := by decide
theorem test_wf_refuses_no_bytes : ¬ Config.wf { small with frameLen := 0, store := [] } := by decide
theorem test_wf_refuses_no_patterns : ¬ Config.wf { tiny with numPatterns := 0, store := [] } := by decide
theorem test_wf_refuses_no_bit_time : ¬ Config.wf { small with bitUs := 0 } := by decide
theorem test_wf_refuses_unsorted_store : ¬ Config.wf { small with store := [(2, 0xAA#8), (0, 0xA5#8)] } := by decide
theorem test_wf_refuses_address_twice : ¬ Config.wf { small with store := [(2, 0xAA#8), (2, 0xA5#8)] } := by decide
theorem test_wf_refuses_listed_unlisted_byte : ¬ Config.wf { small with store := [(1, 0x00#8)] } := by decide
theorem test_wf_refuses_address_outside : ¬ Config.wf { small with store := [(6, 0x01#8)] } := by decide
theorem test_step_refuses_invalid :
    answers (State.boot { small with bitUs := 0 }) = false := by decide

/-- 00_scope.md R7: each range, one parameter wrong at a time. -/
theorem test_params_refused :
    Config.ofParams 0 1 1 0 0 [] [[]] = none ∧ Config.ofParams 1 0 1 0 0 [0x80#8] [] = none ∧
    Config.ofParams 1 1 0 0 0 [0x80#8] [[0x01#8]] = none ∧ Config.ofParams 1 1 1 0 0 [] [[0x01#8]] = none ∧
    Config.ofParams 1 2 1 0 0 [0x80#8] [[0x01#8]] = none ∧ Config.ofParams 1 1 1 0 0 [0x80#8] [[0x01#8, 0x02#8]] = none ∧
    Config.ofParams 1 1 1 (-1) 0 [0x80#8] [[0x01#8]] = none ∧
    Config.ofParams 1 1 1 0 (-1) [0x80#8] [[0x01#8]] = none := by decide

/-! ### Decoding: one word of every row, written out from spec/opcode_table.json -/

theorem test_decode_nop : decode 0b00000000#8 = .nop := by decide
theorem test_decode_run : decode 0b00010000#8 = .run := by decide
theorem test_decode_txIdle : decode 0b00100000#8 = .txIdle := by decide
theorem test_decode_txNext : decode 0b00110000#8 = .txNext := by decide
theorem test_decode_reservedOp4 : decode 0b01001010#8 = .reservedOp4 0b1010#4 := by decide
theorem test_decode_reservedOp5 : decode 0b01011010#8 = .reservedOp5 0b1010#4 := by decide
theorem test_decode_reservedOp6 : decode 0b01101010#8 = .reservedOp6 0b1010#4 := by decide
theorem test_decode_reservedOp7 : decode 0b01111010#8 = .reservedOp7 0b1010#4 := by decide
theorem test_decode_reservedOp8 : decode 0b10001010#8 = .reservedOp8 0b1010#4 := by decide
theorem test_decode_reservedOp9 : decode 0b10011010#8 = .reservedOp9 0b1010#4 := by decide
theorem test_decode_reservedOpA : decode 0b10101010#8 = .reservedOpA 0b1010#4 := by decide
theorem test_decode_reservedOpB : decode 0b10111010#8 = .reservedOpB 0b1010#4 := by decide
theorem test_decode_reservedOpC : decode 0b11001010#8 = .reservedOpC 0b1010#4 := by decide
theorem test_decode_reservedOpD : decode 0b11011010#8 = .reservedOpD 0b1010#4 := by decide
theorem test_decode_reservedOpE : decode 0b11101010#8 = .reservedOpE 0b1010#4 := by decide
theorem test_decode_reservedOpF : decode 0b11111010#8 = .reservedOpF 0b1010#4 := by decide
theorem test_decode_reservedMbzOp0_1xxx : decode 0b00001101#8 = .reservedMbzOp0_1xxx 0b101#3 := by decide
theorem test_decode_reservedMbzOp0_01xx : decode 0b00000110#8 = .reservedMbzOp0_01xx 0b10#2 := by decide
theorem test_decode_reservedMbzOp0_001x : decode 0b00000011#8 = .reservedMbzOp0_001x 0b1#1 := by decide
theorem test_decode_reservedMbzOp0_0001 : decode 0b00000001#8 = .reservedMbzOp0_0001 := by decide
theorem test_decode_reservedMbzOp1_1xxx : decode 0b00011101#8 = .reservedMbzOp1_1xxx 0b101#3 := by decide
theorem test_decode_reservedMbzOp1_01xx : decode 0b00010110#8 = .reservedMbzOp1_01xx 0b10#2 := by decide
theorem test_decode_reservedMbzOp1_001x : decode 0b00010011#8 = .reservedMbzOp1_001x 0b1#1 := by decide
theorem test_decode_reservedMbzOp1_0001 : decode 0b00010001#8 = .reservedMbzOp1_0001 := by decide
theorem test_decode_reservedMbzOp2_1xxx : decode 0b00101101#8 = .reservedMbzOp2_1xxx 0b101#3 := by decide
theorem test_decode_reservedMbzOp2_01xx : decode 0b00100110#8 = .reservedMbzOp2_01xx 0b10#2 := by decide
theorem test_decode_reservedMbzOp2_001x : decode 0b00100011#8 = .reservedMbzOp2_001x 0b1#1 := by decide
theorem test_decode_reservedMbzOp2_0001 : decode 0b00100001#8 = .reservedMbzOp2_0001 := by decide
theorem test_decode_reservedMbzOp3_1xxx : decode 0b00111101#8 = .reservedMbzOp3_1xxx 0b101#3 := by decide
theorem test_decode_reservedMbzOp3_01xx : decode 0b00110110#8 = .reservedMbzOp3_01xx 0b10#2 := by decide
theorem test_decode_reservedMbzOp3_001x : decode 0b00110011#8 = .reservedMbzOp3_001x 0b1#1 := by decide
theorem test_decode_reservedMbzOp3_0001 : decode 0b00110001#8 = .reservedMbzOp3_0001 := by decide

/-- The table's four legal words through the decoder the host asks (`decodeTableWord`). -/
theorem test_decodeTableWord : decodeTableWord 8 0x00 = some .nop ∧ decodeTableWord 8 0x10 = some .run ∧
    decodeTableWord 8 0x20 = some .txIdle ∧ decodeTableWord 8 0x30 = some .txNext ∧
    decodeTableWord 8 0x1F = some (.reservedMbzOp1_1xxx 7#3) := by decide

/-! ### Commands, one step each -/

/-- 46_commands.md R182: "NOP in tick 5 leaves `s_6` equal to `s_5` except `now_us = 6`". -/
theorem test_nop : (stepped { readyWith small 0x00#8 true with blk := { Block.reset with nowUs := 5#64 } }).blk =
    { Block.reset with nowUs := 6#64 } := by decide

/-- 46_commands.md R183: RUN with `IDLE[0]`'s bit 7 set writes HIGH, and STATUS shows MODE = 2 and BUSY = 1. -/
theorem test_run : status (stepped (readyWith small 0x10#8 true)).blk = 0b0000000000100011#16 := by decide

/-- 46_commands.md R183: "Fault entry … then overrides the mode write with HALTED". -/
theorem test_run_fault : status (stepped (readyWith small 0x10#8 false)).blk = 0b0000000000110100#16 := by decide

/-- 46_commands.md R184, 43_frame_transmitter.md R130's example: slot 0, HIGH, and the byte shifted. -/
theorem test_tx_idle : (stepped (readyWith small 0x20#8 true)).blk =
    { Block.reset with
      nowUs := 1#64, lineQ := .high, txActive := true, workByte := 0x4A#8, cnt := 1, mode := .oneshot } := by decide

/-- 46_commands.md R185: slot `1 + rot_idx` for the last pattern, and FRAME_KIND. -/
theorem test_tx_next :
    let t := stepped { readyWith small 0x30#8 true with blk := { Block.reset with rotIdx := 1 } }
    t.blk.txSlot = 2 ∧ t.blk.rotIdx = 1 ∧ t.blk.workByte = 0x1E#8 ∧ status t.blk = 0b0000000001010001#16 := by decide

/-- 46_commands.md R186: "0x11 is illegal even though its `OP` is RUN's". -/
theorem test_illegal_mbz : (stepped (readyWith small 0x11#8 false)).blk =
    { Block.reset with nowUs := 1#64, cmdErr := true } := by decide

/-- 46_commands.md R186, its example's word 0x40. -/
theorem test_illegal_op : (stepped (readyWith small 0x40#8 true)).blk =
    { Block.reset with nowUs := 1#64, cmdErr := true } := by decide

/-- 46_commands.md R180, 95_test_vectors.md: a command presented in RUN is not accepted. -/
theorem test_not_accepted_in_run :
    accepted { yieldingAt small 1 true with ports := { calm true with cmdValid := true, cmd := 0x40#8 } } = none := by decide

/-- A word placed for the fetch runs in the very next step, from a READY and a HALTED block and from one not reset yet. -/
theorem test_withFetchWord :
    (stepped (State.reset.withFetchWord 8 0x10)).blk.mode = .run ∧
    (stepped ((haltedIn small (calm true)).withFetchWord 8 0x30)).blk.txSlot = 1 ∧
    (stepped (State.reset.withFetchWord 8 0xFF)).blk.cmdErr = true ∧
    (stepped ((powerOnWith (calm true)).withFetchWord 8 0x20)).blk.mode = .oneshot := by decide

/-! ### The transmitter, the scheduler and the fault, one step each -/

/-- 41_frame_encoder.md R110: `encode([0xA1])`. -/
theorem test_levels : levels [0xA1#8] = [.high, .low, .high, .low, .low, .low, .low, .high] := by decide

/-- 43_frame_transmitter.md R131: "`work_byte = 0x55` leads to the write LOW, then `work_byte = 0xAA`". -/
theorem test_next_bit :
    let s := busy small .oneshot .idleTx 0 0 0 1 true
    let t := stepped { s with blk := { s.blk with workByte := 0x55#8 } }
    t.blk.lineQ = .low ∧ t.blk.workByte = 0xAA#8 ∧ t.blk.bitIdx = 1 ∧ t.blk.cnt = 1 := by decide

/-- 43_frame_transmitter.md R133: the next byte is loaded whole. -/
theorem test_next_byte :
    let t := stepped (busy small .oneshot .idleTx 2 0 7 1 true)
    t.blk.byteIdx = 1 ∧ t.blk.bitIdx = 0 ∧ t.blk.lineQ = .high ∧ t.blk.workByte = 0xE0#8 := by decide

/-- 43_frame_transmitter.md R134: "`tx_phase` is already GAP … and `cnt` keeps the value `D`". -/
theorem test_gap_write_fault :
    let t := stepped (busy slow .run .patternTx 1 1 7 3 false)
    t.blk.txPhase = .gap ∧ t.blk.cnt = 3 ∧ t.blk.mode = .halted ∧ t.blk.lineQ = .low ∧ t.blk.rotIdx = 0 := by decide

/-- 45_scheduler.md R162: "`now_us = 2,000,999` give `m = 2000`, so no pattern is sent". -/
theorem test_check_at_the_interval :
    (stepped (inGap { small with rotMs := 2000 } .run .idleTx 0 8 true 2000999)).blk.runPhase = .yielding := by decide

/-- 45_scheduler.md R162: "`now_us = 2,036,000` gives `m = 2036 > 2000`, so a pattern is sent and `last_pattern_ms = 2036`". -/
theorem test_check_past_the_interval :
    let t := stepped (inGap { small with rotMs := 2000 } .run .idleTx 0 8 true 2036000)
    t.blk.runPhase = .patternTx ∧ t.blk.lastPatternMs = 2036#64 ∧ t.blk.txSlot = 1 ∧ t.blk.rotIdx = 0 := by decide

/-- 45_scheduler.md R164 with `Y = 0` (R165): the index wraps and the idle frame follows back to back. -/
theorem test_pattern_end_back_to_back :
    let s := inGap noYield .run .patternTx 2 8 true 0
    let t := stepped { s with blk := { s.blk with rotIdx := 1 } }
    t.blk.rotIdx = 0 ∧ t.blk.runPhase = .idleTx ∧ t.blk.txSlot = 0 ∧ t.blk.txActive = true ∧ t.blk.lineQ = .high := by decide

/-- 40_bit_timer.md R101: the counter wraps from `2^64 − 1` to 0. -/
theorem test_time_wraps :
    (stepped { State.boot small with blk := { Block.reset with nowUs := 0xFFFFFFFFFFFFFFFF#64 } }).blk.nowUs = 0#64 := by decide

/-- 40_bit_timer.md R102: "`now_us = 999` gives `now_ms = 0`, and `now_us = 1000` gives `now_ms = 1`". -/
theorem test_now_ms : nowMs { Block.reset with nowUs := 999#64 } = 0#64 ∧
    nowMs { Block.reset with nowUs := 1000#64 } = 1#64 ∧ nowMs { Block.reset with nowUs := 2036000#64 } = 2036#64 := by decide

/-- 70_reset_and_hazards.md R220: reset wins over a command and leaves HALTED. -/
theorem test_reset : (stepped (haltedIn small { rst := true, cmdValid := true, cmd := 0x10#8, pinReady := false })).blk =
    Block.reset := by decide

/-- 70_reset_and_hazards.md R222: before the first reset no other input counts. -/
theorem test_power_on : answers (powerOnWith { (calm true) with cmdValid := true, cmd := 0x20#8 }) = false ∧
    (stepped (powerOnWith { (calm true) with rst := true })).blk = Block.reset := by decide

/-- 42_line_driver.md R121: the pad is the line of the tick's end with the pin ready. -/
theorem test_pad : (stepped (readyWith small 0x20#8 true)).pad = .high := by decide

/-- 42_line_driver.md R121: with the pin not ready the pad is whatever the free value is, for every value. -/
theorem test_pad_free (n : Nat) :
    (stepped { State.boot small with ports := calm false, padDraws := n }).pad = Config.freePad n := rfl

/-- 60_exceptions.md R200: the events and their codes. -/
theorem test_events :
    eventCode (eventOf (readyWith small 0x40#8 true) (stepped (readyWith small 0x40#8 true))) = 2 ∧
    eventCode (eventOf (readyWith small 0x10#8 false) (stepped (readyWith small 0x10#8 false))) = 1 ∧
    eventFatal .hardwareFault = true ∧ eventFatal .illegalCommand = false := by decide

/-- 30_encoding.md R78: a script's text, its actions and its end. -/
theorem test_script_text :
    parseScript "@0: CMD TX_IDLE\n@5: PIN 0 ; not ready\n@7: CMD .cmd 0x1F\nEND 9" =
      some [.act 0 (.cmd 0x20#8), .act 5 (.pin false), .act 7 (.cmd 0x1F#8), .stop 9] := by decide

/-- 30_encoding.md R78: the fields of a script's ports, before and at the tick that sets them. -/
theorem test_script_ports :
    let r := scriptStart small [.act 0 (.cmd 0x20#8), .act 5 (.pin false)]
    scriptPorts r = { rst := false, cmdValid := true, cmd := 0x20#8, pinReady := true } ∧
    (scriptPorts { r with tick := 5 }).pinReady = false := by decide

/-! ### A state for the hypotheses of every statement, clause by clause -/

theorem witness_DecodingDispatchesOnOp :
    (∀ op : BitVec 4, op.toNat ≤ 3 → (op ++ 0#4 : Byte).extractLsb' 0 4 = 0#4 ∧ (op ++ 0#4 : Byte).extractLsb' 4 4 = op) ∧
    ¬((0x40#8 : Byte).extractLsb' 0 4 = 0#4 ∧ ((0x40#8 : Byte).extractLsb' 4 4).toNat ≤ 3) ∧
    ¬((0x31#8 : Byte).extractLsb' 0 4 = 0#4 ∧ ((0x31#8 : Byte).extractLsb' 4 4).toNat ≤ 3) := by decide

theorem witness_AssembleDisassemble :
    "TX".toList ≠ "NOP".toList ∧ "TX".toList ≠ "RUN".toList ∧ "TX".toList ≠ "TX_IDLE".toList ∧
    "TX".toList ≠ "TX_NEXT".toList ∧ assemble? ["TX".toList] = none := by decide

theorem witness_LevelsAreMsbFirst :
    0 < 8 * [0xAA#8, 0x01#8].length ∧ 15 < 8 * [0xAA#8, 0x01#8].length ∧
    (levels [0xAA#8, 0x01#8])[15]? = some .high := by decide

theorem witness_FrameStoreHoldsTheFrames :
    Config.ofParams 2 2 1 0 2 [0xA5#8, 0x00#8] [[0xAA#8, 0x01#8], [0x0F#8, 0xF0#8]] = some small ∧
    memRead small 0 = some 0xA5#8 ∧ memRead small 1 = some 0x00#8 ∧ memRead small 5 = some 0xF0#8 ∧ memRead small 6 = none := by decide

theorem witness_InvalidConfigurationRejected :
    ¬ (State.boot { small with bitUs := 0 }).cfg.wf ∧ Config.ofParams 1 1 1 (-1) 0 [0x80#8] [[0x01#8]] = none ∧
    Config.ofParams 1 1 1 0 0 [0x80#8] [[0x01#8]] = some tiny := by decide

theorem witness_FrameStoreNeverWritten :
    steps 2 (readyWith small 0x10#8 true) = .next (after 2 (readyWith small 0x10#8 true)) := steps_of_answersFor _ _ (by decide)

theorem witness_NopCompletes :
    StateOk (readyWith small 0x00#8 true) ∧ accepted (readyWith small 0x00#8 true) = some 0x00#8 := ⟨by constructor <;> decide, by decide⟩

theorem witness_RunCompletes_ready :
    StateOk (readyWith small 0x10#8 true) ∧ (readyWith small 0x10#8 true).ports.pinReady = true := ⟨by constructor <;> decide, by decide⟩

theorem witness_RunCompletes_not_ready :
    StateOk (readyWith small 0x10#8 false) ∧ (readyWith small 0x10#8 false).ports.pinReady = false := ⟨by constructor <;> decide, by decide⟩

theorem witness_TxIdleCompletes_ready :
    StateOk (readyWith small 0x20#8 true) ∧ (readyWith small 0x20#8 true).ports.pinReady = true := ⟨by constructor <;> decide, by decide⟩

theorem witness_TxIdleCompletes_not_ready :
    StateOk (readyWith small 0x20#8 false) ∧ (readyWith small 0x20#8 false).ports.pinReady = false := ⟨by constructor <;> decide, by decide⟩

theorem witness_TxNextCompletes_ready :
    let s : State := { readyWith small 0x30#8 true with blk := { Block.reset with rotIdx := 1 } }
    StateOk s ∧ s.ports.pinReady = true ∧ (afterExec .txNext s).txSlot = 2 := ⟨by constructor <;> decide, by decide⟩

theorem witness_TxNextCompletes_not_ready :
    let s : State := { readyWith small 0x30#8 false with blk := { Block.reset with rotIdx := 1 } }
    StateOk s ∧ s.ports.pinReady = false ∧ (afterExec .txNext s).txSlot = 2 := ⟨by constructor <;> decide, by decide⟩

theorem witness_IllegalWordIsNotFatal :
    let i : Inputs := { rst := false, cmdValid := true, cmd := 0x10#8, pinReady := true }
    let s : State := { readyWith small 0x31#8 true with feed := [i] }
    StateOk s ∧ accepted s = some 0x31#8 ∧ (decode 0x31#8).isLegal = false ∧ accepted (stepped s) = some 0x10#8 ∧
    noReset (stepped s) 1 ∧ steps 1 (stepped s) = .next (after 1 (stepped s)) := ⟨by constructor <;> decide, by decide, by decide, by decide, by decide, steps_of_answersFor _ _ (by decide)⟩

theorem witness_CommandFrame :
    exec .run (readyWith small 0x10#8 true) = .next { readyWith small 0x10#8 true with
      blk := startedBlock small 0 { Block.reset with mode := .run } } ∧
    startsTransmission .run = true ∧ (readyWith small 0x10#8 true).ports.pinReady = true ∧ Instr.run.isLegal = true ∧
    startsTransmission .nop = false ∧ (Instr.run ≠ .txIdle) ∧ (Instr.run ≠ .txNext) ∧ (Instr.txIdle ≠ .run) := ⟨rfl, by decide⟩

theorem witness_StepRunsDecodedCommand :
    (readyWith small 0x30#8 true).cfg.wf ∧ (readyWith small 0x30#8 true).resetSeen = true ∧
    (readyWith small 0x30#8 true).blk.txActive = false ∧
    accepted (readyWith small 0x30#8 true) = some 0x30#8 := by decide

theorem witness_FetchWordRunsDecodedCommand :
    StateOk State.reset ∧ State.reset.blk.mode = .ready ∧ StateOk (haltedIn small (calm true)) ∧
    accepted ((haltedIn small (calm true)).withFetchWord 8 0x10) = some 0x10#8 := ⟨by constructor <;> decide, by decide, by constructor <;> decide, by decide⟩

theorem witness_UnacceptedCommandHasNoEffect :
    let s := busy small .oneshot .idleTx 0 0 0 1 true
    accepted s = none ∧ accepted { s with ports := { s.ports with cmdValid := true, cmd := 0x10#8 } } = none := by decide

theorem witness_ResetTickGivesReset_pin_ready :
    let s := haltedIn small { rst := true, cmdValid := true, cmd := 0x10#8, pinReady := true }
    s.cfg.wf ∧ s.ports.rst = true ∧ s.ports.pinReady = true := by decide

theorem witness_ResetTickGivesReset_pin_not_ready :
    let s := haltedIn small { rst := true, cmdValid := true, cmd := 0x10#8, pinReady := false }
    s.cfg.wf ∧ s.ports.rst = true ∧ s.ports.pinReady = false := by decide

theorem witness_ResetTickGivesReset_halted :
    let s := haltedIn small (calm true)
    StateOk s ∧ s.ports.rst = false ∧ s.blk.mode = .halted ∧ step s = .next (stepped s) := ⟨by constructor <;> decide, by decide, by decide, step_of_answers _ (by decide)⟩

theorem witness_ResetTickGivesReset_run :
    let s := yieldingAt small 1 true
    StateOk s ∧ s.ports.rst = false ∧ s.blk.mode = .run ∧ step s = .next (stepped s) := ⟨by constructor <;> decide, by decide, by decide, step_of_answers _ (by decide)⟩

theorem witness_RunStartsFromReset_not_reset_yet :
    let s := powerOnWith (calm true)
    s.cfg.wf ∧ s.resetSeen = false ∧ s.ports.rst = false := by decide

theorem witness_RunStartsFromReset_power_on :
    small.wf ∧ (calm true).rst = false ∧ ({ Inputs.quiet with rst := true }).rst = true := by decide

theorem witness_RunStartsFromReset_steps :
    let s := powerOnWith { (calm true) with rst := true }
    steps 2 s = .next (after 2 s) := steps_of_answersFor _ _ (by decide)

theorem witness_RunStartsFromReset_waits :
    let s := State.boot small
    StateOk s ∧ s.blk.mode = .ready ∧ s.ports.rst = false ∧ accepted s = none := ⟨by constructor <;> decide, by decide⟩

theorem witness_ResetMeetsInvariants :
    small.wf ∧ tiny.wf := by decide

/-- A failing gap write. -/
theorem witness_StepKeepsInvariants :
    let s := busy small .oneshot .idleTx 1 1 7 1 false
    StateOk s ∧ step s = .next (stepped s) := ⟨by constructor <;> decide, step_of_answers _ (by decide)⟩

theorem witness_StepKeepsEncoderAgreement :
    let s := busy small .run .patternTx 2 0 7 1 false
    StateOk s ∧ EncoderAgrees s ∧ step s = .next (stepped s) ∧ (stepped s).blk.fault = true := ⟨by constructor <;> decide, by constructor <;> decide, step_of_answers _ (by decide), by decide⟩

theorem witness_StepKeepsSlotAgreement :
    let s := inGap small .run .patternTx 1 8 true 0
    StateOk s ∧ SlotAgrees s ∧ step s = .next (stepped s) := ⟨by constructor <;> decide, by constructor <;> decide, step_of_answers _ (by decide)⟩

theorem witness_StepAlwaysAnswers :
    StateOk (busy small .run .patternTx 2 0 7 1 false) := by constructor <;> decide

theorem witness_InsideBitCellCounts :
    let s := busy slow .oneshot .idleTx 0 0 0 2 true
    (StateOk s ∧ s.ports.rst = false ∧ s.blk.txActive = true ∧ s.blk.txPhase = .bit ∧ s.blk.cnt < s.cfg.bitUs) ∧
    (StateOk (busy small .oneshot .idleTx 0 0 0 1 true) ∧ small.bitUs = 1) := ⟨⟨by constructor <;> decide, by decide⟩, by constructor <;> decide, by decide⟩

theorem witness_NextCellStarts_bit_ready :
    let s := busy slow .oneshot .idleTx 2 0 6 3 true
    StateOk s ∧ s.ports.rst = false ∧ s.blk.txActive = true ∧ s.blk.txPhase = .bit ∧ s.blk.cnt = s.cfg.bitUs ∧
    ¬(s.blk.bitIdx = 7 ∧ s.blk.byteIdx = s.cfg.frameLen - 1) ∧ s.blk.bitIdx = 6 ∧ s.ports.pinReady = true := ⟨by constructor <;> decide, by decide⟩

theorem witness_NextCellStarts_bit_not_ready :
    let s := busy slow .oneshot .idleTx 2 0 6 3 false
    StateOk s ∧ s.ports.rst = false ∧ s.blk.txActive = true ∧ s.blk.txPhase = .bit ∧ s.blk.cnt = s.cfg.bitUs ∧
    ¬(s.blk.bitIdx = 7 ∧ s.blk.byteIdx = s.cfg.frameLen - 1) ∧ s.blk.bitIdx = 6 ∧ s.ports.pinReady = false := ⟨by constructor <;> decide, by decide⟩

theorem witness_NextCellStarts_byte_ready :
    let s := busy slow .oneshot .idleTx 2 0 7 3 true
    StateOk s ∧ s.ports.rst = false ∧ s.blk.txActive = true ∧ s.blk.txPhase = .bit ∧ s.blk.cnt = s.cfg.bitUs ∧
    ¬(s.blk.bitIdx = 7 ∧ s.blk.byteIdx = s.cfg.frameLen - 1) ∧ s.blk.bitIdx = 7 ∧ s.ports.pinReady = true := ⟨by constructor <;> decide, by decide⟩

theorem witness_NextCellStarts_byte_not_ready :
    let s := busy slow .oneshot .idleTx 2 0 7 3 false
    StateOk s ∧ s.ports.rst = false ∧ s.blk.txActive = true ∧ s.blk.txPhase = .bit ∧ s.blk.cnt = s.cfg.bitUs ∧
    ¬(s.blk.bitIdx = 7 ∧ s.blk.byteIdx = s.cfg.frameLen - 1) ∧ s.blk.bitIdx = 7 ∧ s.ports.pinReady = false := ⟨by constructor <;> decide, by decide⟩

theorem witness_GapWriteForcesLow_ready :
    let s := busy small .oneshot .idleTx 1 1 7 1 true
    StateOk s ∧ s.ports.rst = false ∧ s.blk.txActive = true ∧ s.blk.txPhase = .bit ∧ s.blk.cnt = s.cfg.bitUs ∧
    s.blk.bitIdx = 7 ∧ s.blk.byteIdx = s.cfg.frameLen - 1 ∧ s.ports.pinReady = true := ⟨by constructor <;> decide, by decide⟩

theorem witness_GapWriteForcesLow_not_ready :
    let s := busy small .oneshot .idleTx 1 1 7 1 false
    StateOk s ∧ s.ports.rst = false ∧ s.blk.txActive = true ∧ s.blk.txPhase = .bit ∧ s.blk.cnt = s.cfg.bitUs ∧
    s.blk.bitIdx = 7 ∧ s.blk.byteIdx = s.cfg.frameLen - 1 ∧ s.ports.pinReady = false := ⟨by constructor <;> decide, by decide⟩

theorem witness_GapCountsThenOneshotCompletes_counts :
    let s := inGap small .oneshot .idleTx 2 7 true 0
    StateOk s ∧ s.ports.rst = false ∧ s.blk.txActive = true ∧ s.blk.txPhase = .gap ∧ s.blk.cnt < 8 * s.cfg.bitUs := ⟨by constructor <;> decide, by decide⟩

theorem witness_GapCountsThenOneshotCompletes_completes :
    let s := inGap small .oneshot .idleTx 2 8 true 0
    StateOk s ∧ s.ports.rst = false ∧ s.blk.txActive = true ∧ s.blk.txPhase = .gap ∧ s.blk.cnt = 8 * s.cfg.bitUs ∧ s.blk.mode = .oneshot := ⟨by constructor <;> decide, by decide⟩

/-- The last tick of a transmission, and the ticks on either side of the gap write. -/
theorem witness_TransmissionWaveform :
    let s := busy small .oneshot .idleTx 2 0 0 1 true
    StateOk s ∧ EncoderAgrees s ∧ justStarted s ∧ 23 + 1 = txTicks s.cfg ∧ pinHeld s 23 ∧ 15 < 8 * s.cfg.frameLen * s.cfg.bitUs ∧
    8 * s.cfg.frameLen * s.cfg.bitUs ≤ 16 := ⟨by constructor <;> decide, by constructor <;> decide, by decide⟩

theorem witness_TransmissionWriteCount :
    let s := busy tiny .oneshot .idleTx 0 0 0 1 true
    StateOk s ∧ justStarted s ∧ pinHeld s (txTicks s.cfg - 1) ∧ countTicks writesBit (txTicks s.cfg - 1) s = 7 ∧
    countTicks writesGap (txTicks s.cfg - 1) s = 1 := ⟨by constructor <;> decide, by decide⟩

theorem witness_OneshotLatency :
    (StateOk (readyWith small 0x20#8 true) ∧ accepted (readyWith small 0x20#8 true) = some 0x20#8 ∧ decode 0x20#8 = .txIdle ∧
      pinHeld (readyWith small 0x20#8 true) (txTicks small + 1)) ∧
    (StateOk (readyWith tiny 0x30#8 true) ∧ accepted (readyWith tiny 0x30#8 true) = some 0x30#8 ∧ decode 0x30#8 = .txNext ∧
      pinHeld (readyWith tiny 0x30#8 true) (txTicks tiny + 1)) := ⟨⟨by constructor <;> decide, by decide⟩, by constructor <;> decide, by decide⟩

theorem witness_RotationCheckDecides_pattern :
    let s := inGap small .run .idleTx 0 8 true 1000
    StateOk s ∧ s.ports.rst = false ∧ s.blk.mode = .run ∧ s.blk.runPhase = .idleTx ∧ txDone s = true ∧ s.cfg.rotMs < (s.blk.nowUs / 1000#64 - s.blk.lastPatternMs).toNat ∧
    s.ports.pinReady = true := ⟨by constructor <;> decide, by decide⟩

theorem witness_RotationCheckDecides_pattern_fault :
    let s := inGap small .run .idleTx 0 8 false 1000
    StateOk s ∧ s.ports.rst = false ∧ s.blk.mode = .run ∧ s.blk.runPhase = .idleTx ∧ txDone s = true ∧ s.cfg.rotMs < (s.blk.nowUs / 1000#64 - s.blk.lastPatternMs).toNat ∧
    s.ports.pinReady = false := ⟨by constructor <;> decide, by decide⟩

theorem witness_RotationCheckDecides_yield :
    let s := inGap small .run .idleTx 0 8 true 999
    StateOk s ∧ s.ports.rst = false ∧ s.blk.mode = .run ∧ s.blk.runPhase = .idleTx ∧ txDone s = true ∧ ¬ s.cfg.rotMs < (s.blk.nowUs / 1000#64 - s.blk.lastPatternMs).toNat ∧
    s.cfg.yieldUs ≠ 0 := ⟨by constructor <;> decide, by decide⟩

theorem witness_RotationCheckDecides_idle :
    let s := inGap noYield .run .idleTx 0 8 true 999
    StateOk s ∧ s.ports.rst = false ∧ s.blk.mode = .run ∧ s.blk.runPhase = .idleTx ∧ txDone s = true ∧ ¬ s.cfg.rotMs < (s.blk.nowUs / 1000#64 - s.blk.lastPatternMs).toNat ∧
    s.cfg.yieldUs = 0 ∧ s.ports.pinReady = true := ⟨by constructor <;> decide, by decide⟩

theorem witness_RotationCheckDecides_idle_fault :
    let s := inGap noYield .run .idleTx 0 8 false 999
    StateOk s ∧ s.ports.rst = false ∧ s.blk.mode = .run ∧ s.blk.runPhase = .idleTx ∧ txDone s = true ∧ ¬ s.cfg.rotMs < (s.blk.nowUs / 1000#64 - s.blk.lastPatternMs).toNat ∧
    s.cfg.yieldUs = 0 ∧ s.ports.pinReady = false := ⟨by constructor <;> decide, by decide⟩

theorem witness_PatternEndAdvancesAndYields_yield :
    let s := inGap small .run .patternTx 1 8 true 0
    StateOk s ∧ s.ports.rst = false ∧ s.blk.mode = .run ∧ s.blk.runPhase = .patternTx ∧ txDone s = true ∧ s.cfg.yieldUs ≠ 0 := ⟨by constructor <;> decide, by decide⟩

theorem witness_PatternEndAdvancesAndYields_idle :
    let s := inGap noYield .run .patternTx 1 8 true 0
    StateOk s ∧ s.ports.rst = false ∧ s.blk.mode = .run ∧ s.blk.runPhase = .patternTx ∧ txDone s = true ∧ s.cfg.yieldUs = 0 ∧
    s.ports.pinReady = true := ⟨by constructor <;> decide, by decide⟩

theorem witness_PatternEndAdvancesAndYields_idle_fault :
    let s := inGap noYield .run .patternTx 1 8 false 0
    StateOk s ∧ s.ports.rst = false ∧ s.blk.mode = .run ∧ s.blk.runPhase = .patternTx ∧ txDone s = true ∧ s.cfg.yieldUs = 0 ∧
    s.ports.pinReady = false := ⟨by constructor <;> decide, by decide⟩

theorem witness_PatternEndAdvancesAndYields_goes_on :
    let s := inGap small .run .patternTx 1 7 true 0
    StateOk s ∧ s.ports.rst = false ∧ s.blk.mode = .run ∧ s.blk.runPhase = .patternTx ∧ txDone s = false ∧
    partB s s = .next s ∧ step s = .next (stepped s) :=
  ⟨by constructor <;> decide, by decide, by decide, by decide, by decide, rfl, step_of_answers _ (by decide)⟩

theorem witness_YieldCountsThenIdle_counts :
    let s := yieldingAt small 1 true
    StateOk s ∧ s.ports.rst = false ∧ s.blk.mode = .run ∧ s.blk.runPhase = .yielding ∧ s.blk.yieldCnt < s.cfg.yieldUs := ⟨by constructor <;> decide, by decide⟩

theorem witness_YieldCountsThenIdle_ends :
    let s := yieldingAt small 2 true
    StateOk s ∧ s.ports.rst = false ∧ s.blk.mode = .run ∧ s.blk.runPhase = .yielding ∧ s.blk.yieldCnt = s.cfg.yieldUs ∧ s.ports.pinReady = true := ⟨by constructor <;> decide, by decide⟩

theorem witness_YieldCountsThenIdle_ends_fault :
    let s := yieldingAt small 2 false
    StateOk s ∧ s.ports.rst = false ∧ s.blk.mode = .run ∧ s.blk.runPhase = .yielding ∧ s.blk.yieldCnt = s.cfg.yieldUs ∧ s.ports.pinReady = false := ⟨by constructor <;> decide, by decide⟩

theorem witness_RunHasNoTerminalState :
    let s := yieldingAt small 2 false
    StateOk s ∧ s.blk.mode = .run ∧ step s = .next (stepped s) ∧ (stepped s).blk.mode = .halted := ⟨by constructor <;> decide, by decide, step_of_answers _ (by decide), by decide⟩

theorem witness_IterationWithoutPattern_yield :
    let s := busy small .run .idleTx 0 0 0 1 true
    StateOk s ∧ justStarted s ∧ s.blk.mode = .run ∧ s.blk.runPhase = .idleTx ∧
    pinHeld s (txTicks s.cfg + s.cfg.yieldUs) ∧
    ¬ s.cfg.rotMs < ((s.blk.nowUs + BitVec.ofNat 64 (txTicks s.cfg - 1)) / 1000#64 - s.blk.lastPatternMs).toNat := ⟨by constructor <;> decide, by decide⟩

/-- Each clause at both ends of its range: the send at 24 and 47 ticks, the yield at 48 and 49. -/
theorem witness_IterationWithPattern_yield :
    let s0 := busy small .run .idleTx 0 0 0 1 true
    let s : State := { s0 with blk := { s0.blk with nowUs := 1000#64 } }
    StateOk s ∧ justStarted s ∧ s.blk.mode = .run ∧ s.blk.runPhase = .idleTx ∧
    pinHeld s (2 * txTicks s.cfg + s.cfg.yieldUs) ∧
    s.cfg.rotMs < ((s.blk.nowUs + BitVec.ofNat 64 (txTicks s.cfg - 1)) / 1000#64 - s.blk.lastPatternMs).toNat ∧
    (txTicks s.cfg ≤ 24 ∧ 47 < 2 * txTicks s.cfg) ∧ 1 ≤ s.cfg.yieldUs ∧
    (2 * txTicks s.cfg ≤ 48 ∧ 49 < 2 * txTicks s.cfg + s.cfg.yieldUs) := ⟨by constructor <;> decide, by decide⟩

theorem witness_IterationWithoutPattern_no_yield :
    let s := busy tiny .run .idleTx 0 0 0 1 true
    StateOk s ∧ justStarted s ∧ s.blk.mode = .run ∧ s.blk.runPhase = .idleTx ∧
    pinHeld s (txTicks s.cfg + s.cfg.yieldUs) ∧
    ¬ s.cfg.rotMs < ((s.blk.nowUs + BitVec.ofNat 64 (txTicks s.cfg - 1)) / 1000#64 - s.blk.lastPatternMs).toNat := ⟨by constructor <;> decide, by decide⟩

theorem witness_IterationWithPattern_no_yield :
    let s0 := busy tiny .run .idleTx 0 0 0 1 true
    let s : State := { s0 with blk := { s0.blk with nowUs := 1000#64 } }
    StateOk s ∧ justStarted s ∧ s.blk.mode = .run ∧ s.blk.runPhase = .idleTx ∧
    pinHeld s (2 * txTicks s.cfg + s.cfg.yieldUs) ∧
    s.cfg.rotMs < ((s.blk.nowUs + BitVec.ofNat 64 (txTicks s.cfg - 1)) / 1000#64 - s.blk.lastPatternMs).toNat := ⟨by constructor <;> decide, by decide⟩

/-- Two checks `2·L` ticks apart, at `now_us` 1980 and 2012, that both start a pattern (`R = 0`). -/
theorem witness_PatternChecksAreSpaced :
    let s := inGap tiny .run .idleTx 0 8 true 1980
    StateOk s ∧ noReset s 32 ∧ steps 32 s = .next (after 32 s) ∧
    (s.blk.mode = .run ∧ s.blk.runPhase = .idleTx ∧ txDone s = true ∧ rotationDue s = true) ∧
    ((after 32 s).blk.mode = .run ∧ (after 32 s).blk.runPhase = .idleTx ∧ txDone (after 32 s) = true ∧
      rotationDue (after 32 s) = true) ∧ s.blk.nowUs.toNat + 31 + 1 < 2 ^ 64 := ⟨by constructor <;> decide, by decide, steps_of_answersFor _ _ (by decide), by decide, by decide, by decide⟩

theorem witness_RotationAdvancesOnCompletion :
    let s := inGap small .run .patternTx 1 8 true 0
    let r : State := { s with ports := { s.ports with rst := true } }
    (StateOk s ∧ step s = .next (stepped s) ∧ s.ports.rst = false ∧ (stepped s).blk.rotIdx = 1) ∧
    (StateOk r ∧ step r = .next (stepped r) ∧ r.ports.rst = true) := ⟨⟨by constructor <;> decide, step_of_answers _ (by decide), by decide, by decide⟩,
      by constructor <;> decide, step_of_answers _ (by decide), by decide⟩

theorem witness_PatternsGoRoundRobin :
    let s0 := inGap small .run .patternTx 2 8 true 0
    let s : State := { s0 with blk := { s0.blk with rotIdx := 1 } }
    StateOk s ∧ SlotAgrees s ∧ noReset s 1 ∧ steps 1 s = .next (after 1 s) ∧ countTicks completesPattern 1 s = 1 ∧
    steps 0 s = .next s ∧ completesPattern s = true := ⟨by constructor <;> decide, by constructor <;> decide, by decide, steps_of_answersFor _ _ (by decide), by decide, rfl, by decide⟩

theorem witness_TimestampWrittenOnlyByCheck :
    let s := inGap small .run .idleTx 0 8 true 999
    StateOk s ∧ s.ports.rst = false ∧ step s = .next (stepped s) ∧ (stepped s).blk.yieldCnt ≠ s.blk.yieldCnt := ⟨by constructor <;> decide, by decide, step_of_answers _ (by decide), by decide⟩

theorem witness_PinMattersOnlyWhenWriting_fault :
    let s := busy small .oneshot .idleTx 1 1 7 1 false
    StateOk s ∧ s.ports.rst = false ∧ s.blk.mode ≠ .halted ∧ writesLine s = true ∧ s.ports.pinReady = false ∧
    noReset (stepped s) 1 ∧ steps 1 (stepped s) = .next (after 1 (stepped s)) := ⟨by constructor <;> decide, by decide, by decide, by decide, by decide, by decide, steps_of_answersFor _ _ (by decide)⟩

theorem witness_PinMattersOnlyWhenWriting_written :
    let s := yieldingAt small 2 true
    StateOk s ∧ s.ports.rst = false ∧ s.blk.mode ≠ .halted ∧ writesLine s = true ∧ s.ports.pinReady = true := ⟨by constructor <;> decide, by decide⟩

theorem witness_PinMattersOnlyWhenWriting_no_write :
    let s := busy slow .oneshot .idleTx 1 1 7 2 true
    let p : State := { s with ports := { s.ports with pinReady := false } }
    StateOk s ∧ s.ports.rst = false ∧ s.blk.mode ≠ .halted ∧ writesLine s = false ∧ step p = .next (stepped p) ∧
    step s = .next (stepped s) := ⟨by constructor <;> decide, by decide, by decide, by decide, step_of_answers _ (by decide), step_of_answers _ (by decide)⟩

theorem witness_FaultEntryHaltsTheBlock :
    let s := inGap small .run .idleTx 0 8 false 1000
    StateOk s ∧ s.ports.rst = false ∧ s.blk.fault = false ∧ step s = .next (stepped s) ∧ (stepped s).blk.fault = true := ⟨by constructor <;> decide, by decide, by decide, step_of_answers _ (by decide), by decide⟩

theorem witness_FaultNamesTheFailingWrite_cell :
    let s := busy small .oneshot .idleTx 1 0 7 1 false
    StateOk s ∧ EncoderAgrees s ∧ s.ports.rst = false ∧ s.blk.fault = false ∧ step s = .next (stepped s) ∧
    (stepped s).blk.fault = true ∧ (s.blk.txActive = true ∧ s.blk.txPhase = .bit ∧ (stepped s).blk.txPhase = .bit) := ⟨by constructor <;> decide, by constructor <;> decide, by decide, by decide, step_of_answers _ (by decide), by decide, by decide⟩

theorem witness_FaultNamesTheFailingWrite_gap :
    let s := busy small .oneshot .idleTx 1 1 7 1 false
    StateOk s ∧ EncoderAgrees s ∧ s.ports.rst = false ∧ s.blk.fault = false ∧ step s = .next (stepped s) ∧
    (stepped s).blk.fault = true ∧ (s.blk.txActive = true ∧ s.blk.txPhase = .bit ∧ (stepped s).blk.txPhase = .gap) := ⟨by constructor <;> decide, by constructor <;> decide, by decide, by decide, step_of_answers _ (by decide), by decide, by decide⟩

theorem witness_FaultNamesTheFailingWrite_start :
    let s := yieldingAt small 2 false
    StateOk s ∧ EncoderAgrees s ∧ s.ports.rst = false ∧ s.blk.fault = false ∧ step s = .next (stepped s) ∧
    (stepped s).blk.fault = true ∧ (¬(s.blk.txActive = true ∧ s.blk.txPhase = .bit) ∧ (stepped s).blk.txPhase = .bit) := ⟨by constructor <;> decide, by constructor <;> decide, by decide, by decide, step_of_answers _ (by decide), by decide, by decide⟩

theorem witness_HaltedStaysFrozen :
    let s := haltedIn small { rst := false, cmdValid := true, cmd := 0x10#8, pinReady := false }
    StateOk s ∧ s.blk.mode = .halted ∧ noReset s 3 := ⟨by constructor <;> decide, by decide⟩

theorem witness_LineHasASingleWriter :
    let s := readyWith small 0x20#8 true
    StateOk s ∧ step s = .next (stepped s) ∧ (stepped s).blk.lineQ ≠ s.blk.lineQ := ⟨by constructor <;> decide, step_of_answers _ (by decide), by decide⟩

theorem witness_PadFollowsTheLine_ready :
    let s := busy slow .oneshot .idleTx 0 0 0 1 true
    step s = .next (stepped s) ∧ s.ports.pinReady = true := ⟨step_of_answers _ (by decide), by decide⟩

theorem witness_PadFollowsTheLine_not_ready :
    let s := busy slow .oneshot .idleTx 0 0 0 1 false
    step s = .next (stepped s) ∧ s.ports.pinReady = false := ⟨step_of_answers _ (by decide), by decide⟩

theorem witness_TransmissionsDoNotOverlap :
    let s := inGap small .run .idleTx 0 7 true 0
    StateOk s ∧ s.ports.rst = false ∧ s.blk.txActive = true ∧ txDone s = false ∧ step s = .next (stepped s) := ⟨by constructor <;> decide, by decide, by decide, by decide, step_of_answers _ (by decide)⟩

theorem witness_FlagsAreSticky_reset :
    let s := haltedIn small { Inputs.quiet with rst := true }
    StateOk s ∧ step s = .next (stepped s) ∧ s.ports.rst = true := ⟨by constructor <;> decide, step_of_answers _ (by decide), by decide⟩

theorem witness_FlagsAreSticky_fault_kept :
    let s := haltedIn small (calm true)
    StateOk s ∧ step s = .next (stepped s) ∧ s.ports.rst = false ∧ s.blk.fault = true := ⟨by constructor <;> decide, step_of_answers _ (by decide), by decide⟩

theorem witness_FlagsAreSticky_fault_and_busy_cleared :
    let s := busy small .oneshot .idleTx 0 0 0 1 false
    StateOk s ∧ step s = .next (stepped s) ∧ s.ports.rst = false ∧ s.blk.fault = false ∧ (stepped s).blk.fault = true ∧
    s.blk.txActive = true ∧ (stepped s).blk.txActive = false := ⟨by constructor <;> decide, step_of_answers _ (by decide), by decide⟩

theorem witness_FlagsAreSticky_busy_set :
    let s := yieldingAt small 2 true
    StateOk s ∧ step s = .next (stepped s) ∧ s.ports.rst = false ∧ s.blk.txActive = false ∧ (stepped s).blk.txActive = true := ⟨by constructor <;> decide, step_of_answers _ (by decide), by decide⟩

/-- 10_state.md R22: `ceil(log2 P)`, at least 1. -/
theorem witness_OutputPorts :
    StateOk (State.boot tiny) ∧ rotWidth tiny = 1 ∧ StateOk (State.boot { small with numPatterns := 3 }) ∧
    rotWidth { small with numPatterns := 3 } = 2 ∧ rotWidth { small with numPatterns := 4 } = 2 ∧
    rotWidth { small with numPatterns := 5 } = 3 := ⟨by constructor <;> decide, by decide, by constructor <;> decide, by decide⟩

theorem witness_TimeAdvancesEveryTick :
    let s := busy small .oneshot .idleTx 0 0 0 1 false
    step s = .next (stepped s) ∧ noReset s 2 ∧ steps 2 s = .next (after 2 s) := ⟨step_of_answers _ (by decide), by decide, steps_of_answersFor _ _ (by decide)⟩

end Sys2Proof.Tests
end

section
/-! The making of a configuration from its parameters (00_scope.md R6, R7), and the obligation about parameters R7 rejects. -/

namespace Sys2Proof.Proofs

open Sys2Proof.Machine Sys2Proof.Laws

/-- R7's ranges as a list of the ways to break them. -/
theorem not_paramsOk_iff (n p d : Nat) (r y : Int) (idle : List Byte) (pats : List (List Byte)) :
    ¬ paramsOk n p d r y idle pats ↔
      n = 0 ∨ p = 0 ∨ d = 0 ∨ idle.length ≠ n ∨ pats.length ≠ p ∨ (∃ f ∈ pats, f.length ≠ n) ∨ r < 0 ∨ y < 0 := by
  simp only [paramsOk, Classical.not_and_iff_not_or_not, Nat.not_le, Nat.lt_one_iff, Int.not_le, Classical.not_forall,
    exists_prop, ne_eq]
  ac_nf

theorem ofParams_eq_none_iff (n p d : Nat) (r y : Int) (idle : List Byte) (pats : List (List Byte)) :
    Config.ofParams n p d r y idle pats = none ↔ ¬ paramsOk n p d r y idle pats := by
  simp only [Config.ofParams, ite_eq_right_iff, reduceCtorEq, imp_false]

/-- Settles O7: `Config.ofParams` answers exactly on `paramsOk`, whose negation is the list of R7's broken ranges; the step's
guard refuses before any tick. -/
theorem invalidConfigurationRejected : Obligations.InvalidConfigurationRejected := by
  unfold Obligations.InvalidConfigurationRejected
  constructor
  · intro n p d r y idle pats
    rw [ofParams_eq_none_iff, not_paramsOk_iff]
  · exact step_of_not_wf

end Sys2Proof.Proofs
end

section
/-! The ranges of 10_state.md R23 and the laws of R26, kept by every step: what each case of a tick does to them. -/

namespace Sys2Proof.Proofs

open Sys2Proof.Machine Sys2Proof.Laws

/-! ### The ranges, and the invariants after fault entry -/

/-- The part of `StateOk` that fault entry relies on: R23's ranges, under a configuration R7 allows, in a run that starts from
RESET. -/
structure InRange (s : State) : Prop where
  wasReset : s.resetSeen = true
  cfgWf : s.cfg.wf
  slotRange : s.blk.txSlot ≤ s.cfg.numPatterns
  byteRange : s.blk.byteIdx < s.cfg.frameLen
  bitRange : s.blk.bitIdx < 8
  cntRange : s.blk.cnt ≤ gapTicks s.cfg
  yieldRange : s.blk.yieldCnt ≤ s.cfg.yieldUs
  rotRange : s.blk.rotIdx < s.cfg.numPatterns

theorem inRange_of_stateOk {s : State} (hI : StateOk s) : InRange s := { hI with }

/-- Fault entry makes R26's laws true of every record in range (60_exceptions.md R201). -/
theorem stateOk_faultEntry {s : State} (h : InRange s) : StateOk (faultEntry s) :=
  { h with
    stillIdle := fun _ => rfl
    oneshotBusy := nofun
    runBusy := nofun
    bitCnt := nofun
    gapCnt := nofun
    yieldCnt := nofun
    faultHalted := iff_of_true rfl rfl
    lineLow := fun _ => rfl }

/-- RESET meets the invariants (70_reset_and_hazards.md R220), whatever the state before it. -/
theorem stateOk_takeReset {s : State} (hc : s.cfg.wf) : StateOk (takeReset s) where
  wasReset := rfl
  cfgWf := hc
  slotRange := Nat.zero_le _
  byteRange := hc.1
  bitRange := Nat.zero_lt_succ _
  cntRange := Nat.zero_le _
  yieldRange := Nat.zero_le _
  rotRange := hc.2.1
  stillIdle _ := rfl
  oneshotBusy := nofun
  runBusy := nofun
  bitCnt := nofun
  gapCnt := nofun
  yieldCnt := nofun
  faultHalted := iff_of_false nofun nofun
  lineLow _ := rfl

/-- The invariants speak of the mark, the configuration and the record only. -/
theorem stateOk_of_same {s t : State} (hr : t.resetSeen = s.resetSeen) (hc : t.cfg = s.cfg) (hb : t.blk = s.blk)
    (h : StateOk s) : StateOk t := by
  cases t
  cases hr
  cases hc
  cases hb
  exact { h with }

theorem stateOk_closeTick {s : State} (h : StateOk s) : StateOk (closeTick s) :=
  stateOk_of_same (closeTick_resetSeen s) (closeTick_cfg s) (closeTick_blk s) h

/-- Part C keeps the invariants: they do not speak of `now_us`. -/
theorem stateOk_closeTickC {s : State} (h : StateOk s) : StateOk (closeTickC s) :=
  stateOk_closeTick (s := advanceTime s) { h with }

/-! ### What the invariants say of `D`, of a transmission and of a completion -/

theorem bitUs_le_gapTicks (c : Config) : c.bitUs ≤ gapTicks c := Nat.le_mul_of_pos_left _ (by decide)

/-- The first tick of a cell or gap is within the range of `cnt`. -/
theorem one_le_gapTicks {c : Config} (hc : c.wf) : 1 ≤ gapTicks c := Nat.le_trans hc.2.2.1 (bitUs_le_gapTicks c)

theorem rotIdx_succ_mod_lt {s : State} (hI : StateOk s) :
    (s.blk.rotIdx + 1) % s.cfg.numPatterns < s.cfg.numPatterns := Nat.mod_lt _ hI.cfgWf.2.1

theorem not_halted_of_active {s : State} (hI : StateOk s) (ht : s.blk.txActive = true) : s.blk.mode ≠ .halted :=
  fun hm => Bool.noConfusion (ht.symm.trans (hI.stillIdle (.inr hm)))

theorem fault_eq_false_of_not_halted {s : State} (hI : StateOk s) (hm : s.blk.mode ≠ .halted) : s.blk.fault = false :=
  Bool.eq_false_iff.mpr fun hf => hm (hI.faultHalted.mp hf)

/-- The gap write forced the line LOW (43_frame_transmitter.md R134), and it still is when the transmission completes. -/
theorem lineQ_eq_low_of_txDone {s : State} (hI : StateOk s) (hd : txDone s = true) : s.blk.lineQ = .low :=
  hI.lineLow (.inr ((txDone_iff s).mp hd).2.1)

/-! ### The record a transmission starts from -/

section StartCause

variable {s : State} {slot : Nat} {b : Block}

theorem startCause_yieldCnt_le (hI : StateOk s) (h : StartCause s slot b) : b.yieldCnt ≤ s.cfg.yieldUs := by
  cases h <;> exact hI.yieldRange

theorem startCause_cnt_le (hI : StateOk s) (h : StartCause s slot b) : b.cnt ≤ gapTicks s.cfg := by
  cases h <;> exact hI.cntRange

theorem startCause_fault (h : StartCause s slot b) : b.fault = s.blk.fault := by cases h <;> rfl

theorem startCause_cmdErr (h : StartCause s slot b) : b.cmdErr = s.blk.cmdErr := by cases h <;> rfl

theorem startCause_rotIdx_lt (hI : StateOk s) (h : StartCause s slot b) : b.rotIdx < s.cfg.numPatterns := by
  cases h
  case afterPattern => exact rotIdx_succ_mod_lt hI
  all_goals exact hI.rotRange

/-- A transmission starts only as a one-shot or as a send of RUN (46_commands.md R183-R185, 45_scheduler.md R162-R166). -/
theorem startCause_mode (h : StartCause s slot b) : b.mode = .oneshot ∨ b.mode = .run ∧ b.runPhase ≠ .yielding := by
  cases h
  case txIdle | txNext => exact .inl rfl
  case run => exact .inr ⟨rfl, nofun⟩
  case pattern hm _ _ _ | idleAgain hm _ _ _ _ | afterPattern hm _ _ _ | yieldEnd hm _ _ => exact .inr ⟨hm, nofun⟩

/-- A transmission starts from READY or in RUN, and so in a block without a fault. -/
theorem startCause_not_halted (h : StartCause s slot b) : s.blk.mode ≠ .halted := by
  cases h
  case run ha _ | txIdle ha _ | txNext ha _ =>
    obtain ⟨_, _, hm, _⟩ := (accepted_eq_some s _).mp ha
    simp [hm]
  case pattern hm _ _ _ | idleAgain hm _ _ _ _ | afterPattern hm _ _ _ | yieldEnd hm _ _ => simp [hm]

end StartCause

/-! ### Each case of a tick keeps the invariants -/

section Cases

variable {s : State} {slot : Nat} {b : Block}

/-- `tx_start` sets the indices to 0 and the slot to one the frame store has (43_frame_transmitter.md R130). -/
theorem inRange_startCalled (hI : StateOk s) (hc : StartCause s slot b) :
    InRange { s with blk := { b with txSlot := slot, byteIdx := 0, bitIdx := 0 } } where
  wasReset := hI.wasReset
  cfgWf := hI.cfgWf
  slotRange := (hc.slot_le hI :)
  byteRange := hI.cfgWf.1
  bitRange := Nat.zero_lt_succ _
  cntRange := (startCause_cnt_le hI hc :)
  yieldRange := (startCause_yieldCnt_le hI hc :)
  rotRange := (startCause_rotIdx_lt hI hc :)

theorem stateOk_started (hI : StateOk s) (hc : StartCause s slot b) :
    StateOk { s with blk := startedBlock s.cfg slot b } :=
  { inRange_startCalled hI hc with
    cntRange := one_le_gapTicks hI.cfgWf
    stillIdle := by rcases startCause_mode hc with hm | ⟨hm, _⟩ <;> simp [startedBlock, hm]
    oneshotBusy := fun _ => rfl
    runBusy := by
      rcases startCause_mode hc with hm | ⟨hm, hp⟩
      · simp [startedBlock, hm]
      · simp [startedBlock, hm, hp]
    bitCnt := fun _ _ => ⟨Nat.le_refl _, hI.cfgWf.2.2.1⟩
    gapCnt := nofun
    yieldCnt := by
      rcases startCause_mode hc with hm | ⟨hm, hp⟩
      · simp [startedBlock, hm]
      · simp [startedBlock, hm, hp]
    faultHalted := by
      have hf := (startCause_fault hc).trans (fault_eq_false_of_not_halted hI (startCause_not_halted hc))
      rcases startCause_mode hc with hm | ⟨hm, _⟩ <;> simp [startedBlock, hm, hf]
    lineLow := nofun }

/-- A failing start is fault entry on the record `tx_start` had made (43_frame_transmitter.md R130). -/
theorem stateOk_failedStart (hI : StateOk s) (hc : StartCause s slot b) :
    StateOk { s with blk := failedStartBlock s.cfg slot b } :=
  stateOk_faultEntry
    (s := { s with blk := { b with
      txSlot := slot, txPhase := .bit, byteIdx := 0, bitIdx := 0, workByte := firstByte s.cfg slot } })
    { inRange_startCalled hI hc with }

/-- A bit write of a running transmission: `cnt` restarts and the indices stay in range, whatever the level
(43_frame_transmitter.md R133). -/
theorem stateOk_cellStarts {i j : Nat} {l : Level} {w : Byte} (hI : StateOk s) (ht : s.blk.txActive = true)
    (hp : s.blk.txPhase = .bit) (hi : i < s.cfg.frameLen) (hj : j < 8) :
    StateOk { s with blk := { s.blk with byteIdx := i, bitIdx := j, cnt := 1, lineQ := l, workByte := w } } :=
  { hI with
    byteRange := hi
    bitRange := hj
    cntRange := one_le_gapTicks hI.cfgWf
    bitCnt := fun _ _ => ⟨Nat.le_refl _, hI.cfgWf.2.2.1⟩
    gapCnt := fun _ _ => ⟨Nat.le_refl _, one_le_gapTicks hI.cfgWf⟩
    lineLow := by simp [ht, hp] }

/-- A failing bit write of a running transmission: the indices name the cell not written (60_exceptions.md R202). -/
theorem stateOk_cellFails {i j : Nat} {w : Byte} (hI : StateOk s) (hi : i < s.cfg.frameLen) (hj : j < 8) :
    StateOk { s with blk := { s.blk with
      byteIdx := i, bitIdx := j, workByte := w, fault := true, mode := .halted, txActive := false, lineQ := .low } } :=
  stateOk_faultEntry (s := { s with blk := { s.blk with byteIdx := i, bitIdx := j, workByte := w } })
    { inRange_of_stateOk hI with byteRange := hi, bitRange := hj }

/-- One more tick in a bit cell (43_frame_transmitter.md R132). -/
theorem stateOk_cellCounts (hI : StateOk s) (hp : s.blk.txPhase = .bit) (hc : s.blk.cnt < s.cfg.bitUs) :
    StateOk { s with blk := { s.blk with cnt := s.blk.cnt + 1 } } :=
  { hI with
    cntRange := Nat.le_trans hc (bitUs_le_gapTicks s.cfg)
    bitCnt := fun _ _ => ⟨Nat.le_add_left 1 _, hc⟩
    gapCnt := by simp [hp] }

/-- One more tick in the gap (43_frame_transmitter.md R135). -/
theorem stateOk_gapCounts (hI : StateOk s) (hp : s.blk.txPhase = .gap) (hc : s.blk.cnt < gapTicks s.cfg) :
    StateOk { s with blk := { s.blk with cnt := s.blk.cnt + 1 } } :=
  { hI with
    cntRange := hc
    bitCnt := by simp [hp]
    gapCnt := fun _ _ => ⟨Nat.le_add_left 1 _, hc⟩ }

/-- The gap write (43_frame_transmitter.md R134). -/
theorem stateOk_gapStarts (hI : StateOk s) : StateOk { s with blk := { s.blk with txPhase := .gap, lineQ := .low, cnt := 1 } } :=
  { hI with
    cntRange := one_le_gapTicks hI.cfgWf
    bitCnt := nofun
    gapCnt := fun _ _ => ⟨Nat.le_refl _, one_le_gapTicks hI.cfgWf⟩
    lineLow := fun _ => rfl }

/-- A failing gap write (43_frame_transmitter.md R134, 60_exceptions.md R202). -/
theorem stateOk_gapFails (hI : StateOk s) :
    StateOk { s with blk := { s.blk with
      txPhase := .gap, fault := true, mode := .halted, txActive := false, lineQ := .low } } :=
  stateOk_faultEntry (s := { s with blk := { s.blk with txPhase := .gap } }) { inRange_of_stateOk hI with }

/-- A one-shot completes, with the rotation index advanced or not (46_commands.md R187). -/
theorem stateOk_oneshotDone {r : Nat} (hI : StateOk s) (hm : s.blk.mode = .oneshot) (hd : txDone s = true)
    (hr : r < s.cfg.numPatterns) :
    StateOk { s with blk := { s.blk with txActive := false, mode := .ready, rotIdx := r } } :=
  { hI with
    rotRange := hr
    stillIdle := fun _ => rfl
    oneshotBusy := nofun
    runBusy := nofun
    bitCnt := nofun
    gapCnt := nofun
    yieldCnt := nofun
    faultHalted := by simp [fault_eq_false_of_not_halted hI (show s.blk.mode ≠ .halted by simp [hm])]
    lineLow := fun _ => (lineQ_eq_low_of_txDone hI hd :) }

/-- The yield starts when a send of RUN completes, with the rotation index advanced or not (45_scheduler.md R165). -/
theorem stateOk_yieldStarts {r : Nat} (hI : StateOk s) (hm : s.blk.mode = .run) (hd : txDone s = true)
    (hy : s.cfg.yieldUs ≠ 0) (hr : r < s.cfg.numPatterns) :
    StateOk { s with blk := { s.blk with txActive := false, rotIdx := r, runPhase := .yielding, yieldCnt := 1 } } :=
  { hI with
    yieldRange := Nat.one_le_iff_ne_zero.mpr hy
    rotRange := hr
    stillIdle := fun _ => rfl
    oneshotBusy := by simp [hm]
    runBusy := by simp
    bitCnt := nofun
    gapCnt := nofun
    yieldCnt := fun _ _ => ⟨Nat.le_refl _, Nat.one_le_iff_ne_zero.mpr hy⟩
    lineLow := fun _ => (lineQ_eq_low_of_txDone hI hd :) }

/-- One more tick of the yield (45_scheduler.md R166). -/
theorem stateOk_yieldCounts (hI : StateOk s) (hy : s.blk.yieldCnt < s.cfg.yieldUs) :
    StateOk { s with blk := { s.blk with yieldCnt := s.blk.yieldCnt + 1 } } :=
  { hI with
    yieldRange := hy
    yieldCnt := fun _ _ => ⟨Nat.le_add_left 1 _, hy⟩ }

theorem stateOk_tickCase (hI : StateOk s) (h : TickCase s b) : StateOk { s with blk := b } := by
  have hbyte := hI.byteRange
  cases h with
  | still | nop => exact hI
  | illegal => exact { hI with }
  | start slot b hc => exact stateOk_started hI hc
  | startFails slot b hc => exact stateOk_failedStart hI hc
  | inside _ hp hc => exact stateOk_cellCounts hI hp hc
  | nextBit ht hp _ hb => exact stateOk_cellStarts hI ht hp hbyte (by omega)
  | nextBitFails _ _ _ hb => exact stateOk_cellFails hI hbyte (by omega)
  | nextByte ht hp _ _ hi => exact stateOk_cellStarts hI ht hp hi (by omega)
  | nextByteFails _ _ _ _ hi => exact stateOk_cellFails hI hi (by omega)
  | gapWrite => exact stateOk_gapStarts hI
  | gapWriteFails => exact stateOk_gapFails hI
  | gapCount _ hp hc => exact stateOk_gapCounts hI hp hc
  | oneshotDone hm hd =>
    refine stateOk_oneshotDone hI hm hd ?_
    cases s.blk.osKind
    · exact hI.rotRange
    · exact rotIdx_succ_mod_lt hI
  | idleThenYield hm _ hd _ hy => exact stateOk_yieldStarts hI hm hd hy hI.rotRange
  | patternThenYield hm _ hd hy => exact stateOk_yieldStarts hI hm hd hy (rotIdx_succ_mod_lt hI)
  | yieldCount _ _ hy => exact stateOk_yieldCounts hI hy

end Cases

/-- Settles O22: a step is a reset tick, which gives RESET, or one of the cases of a tick, each of which keeps the invariants. -/
theorem stepKeepsInvariants : Obligations.StepKeepsInvariants := by
  unfold Obligations.StepKeepsInvariants
  intro s t hI h
  rcases step_next_cases s t hI h with ⟨_, rfl⟩ | ⟨_, b, hb, rfl⟩
  · exact stateOk_closeTick (stateOk_takeReset hI.cfgWf)
  · exact stateOk_closeTickC (stateOk_tickCase hI hb)

end Sys2Proof.Proofs
end

section
/-! What sets and clears BUSY, FAULT and CMD_ERR in a tick that is no reset (10_state.md R25). -/

namespace Sys2Proof.Proofs

open Sys2Proof.Machine Sys2Proof.Laws

section Flags

variable {s : State} {slot : Nat} {b : Block}

/-! ### CMD_ERR -/

theorem illegalAccepted_iff (s : State) :
    illegalAccepted s = true ↔ ∃ w, accepted s = some w ∧ (decode w).isLegal = false := by
  unfold illegalAccepted
  cases accepted s <;> simp

/-- A tick that accepts an illegal word is the IllegalCommand tick and no other (46_commands.md R186). -/
theorem tickCase_of_illegalAccepted (hI : StateOk s) (hl : illegalAccepted s = true) (h : TickCase s b) :
    b = { s.blk with cmdErr := true } := by
  obtain ⟨w, ha, hd⟩ := (illegalAccepted_iff s).mp hl
  obtain ⟨_, _, hm, _⟩ := (accepted_eq_some s w).mp ha
  have ht := hI.stillIdle (.inl hm)
  cases h
  case illegal => rfl
  case start hc _ | startFails hc _ => cases hc <;> simp_all [Instr.isLegal]
  all_goals simp_all [Instr.isLegal]

theorem tickCase_cmdErr_of_legal (hl : illegalAccepted s = false) (h : TickCase s b) : b.cmdErr = s.blk.cmdErr := by
  cases h
  case illegal w ha hd => exact absurd ((illegalAccepted_iff s).mpr ⟨w, ha, hd⟩) (by simp [hl])
  case start hc _ | startFails hc _ => exact (startCause_cmdErr hc :)
  all_goals rfl

theorem tickCase_cmdErr (hI : StateOk s) (h : TickCase s b) : b.cmdErr = (s.blk.cmdErr || illegalAccepted s) := by
  cases hl : illegalAccepted s
  · rw [tickCase_cmdErr_of_legal hl h, Bool.or_false]
  · rw [tickCase_of_illegalAccepted hI hl h, Bool.or_true]

/-! ### FAULT -/

/-- No action but reset clears FAULT (60_exceptions.md R203). -/
theorem tickCase_fault_of_fault (hf : s.blk.fault = true) (h : TickCase s b) : b.fault = true := by
  cases h
  case start hc _ => exact (startCause_fault hc).trans hf
  case startFails | nextBitFails | nextByteFails | gapWriteFails => rfl
  all_goals exact hf

/-! ### BUSY -/

/-- A transmission in progress ends by completion or by fault entry (43_frame_transmitter.md R139). -/
theorem tickCase_active_cleared (ht : s.blk.txActive = true) (h : TickCase s b) (hb : b.txActive = false) :
    txDone s = true ∨ b.fault = true := by
  have hne : s.blk.txActive ≠ false := by simp [ht]
  cases h
  case oneshotDone hd | idleThenYield hd _ _ | patternThenYield hd _ => exact .inl hd
  case startFails | nextBitFails | nextByteFails | gapWriteFails => exact .inr rfl
  case start => exact Bool.noConfusion hb
  all_goals exact absurd hb hne

/-- Every start of a transmission writes the line: the bit write of its first cell (43_frame_transmitter.md R130). -/
theorem startCause_writesLine (h : StartCause s slot b) : writesLine s = true := by
  cases h
  case run ha hd | txIdle ha hd | txNext ha hd => simp [writesLine, ha, hd, startsTransmission, Instr.isLegal]
  case pattern hm hp hd hr => simp [writesLine, hm, hp, hd, hr]
  case idleAgain hm hp hd _ hy | afterPattern hm hp hd hy => simp [writesLine, hm, hp, hd, hy]
  case yieldEnd hm hp hy => simp [writesLine, hm, hp, hy]

theorem tickCase_active_set (ht : s.blk.txActive = false) (h : TickCase s b) (hb : b.txActive = true) :
    writesLine s = true := by
  have hne : s.blk.txActive ≠ true := by simp [ht]
  cases h
  case start hc _ => exact startCause_writesLine hc
  case startFails | nextBitFails | nextByteFails | gapWriteFails | oneshotDone | idleThenYield | patternThenYield =>
    exact Bool.noConfusion hb
  all_goals exact absurd hb hne

end Flags

/-- Settles O51: reset clears the three flags, and each case of a tick is read off for each flag. -/
theorem flagsAreSticky : Obligations.FlagsAreSticky := by
  unfold Obligations.FlagsAreSticky
  intro s t hI h
  have hT := stepKeepsInvariants s t hI h
  rcases step_next_cases s t hI h with ⟨hr, rfl⟩ | ⟨hr, b, hb, rfl⟩
  · exact ⟨fun _ => by simp [Block.reset], by simp [hr]⟩
  · refine ⟨by simp [hr], fun _ => ?_⟩
    have hhalt := hT.faultHalted
    simp only [closeTickC_blk] at hhalt ⊢
    exact ⟨fun hf => tickCase_fault_of_fault hf hb,
      fun hf hf' => ⟨fun hm => by simp [hI.faultHalted.mpr hm] at hf, hhalt.mp hf'⟩,
      tickCase_cmdErr hI hb,
      fun ht ht' => (tickCase_active_cleared ht hb ht').imp_right fun hf =>
        ⟨fault_eq_false_of_not_halted hI (not_halted_of_active hI ht), hf⟩,
      fun ht ht' => tickCase_active_set ht hb ht'⟩

end Sys2Proof.Proofs
end

section
/-! The output ports and the fields of STATUS (10_state.md R22, R24). -/

namespace Sys2Proof.Proofs

open Sys2Proof.Machine Sys2Proof.Laws

/-! ### `rot_idx_o` -/

theorem numPatterns_le_two_pow_rotWidth (c : Config) : c.numPatterns ≤ 2 ^ rotWidth c :=
  Nat.le_of_pred_lt Nat.lt_log2_self

/-- A width above 1 is the least: one bit less holds fewer than `P` values. -/
theorem two_pow_rotWidth_pred_lt {c : Config} (h : 1 < rotWidth c) : 2 ^ (rotWidth c - 1) < c.numPatterns := by
  have hne : c.numPatterns - 1 ≠ 0 := fun h0 => by simp [rotWidth, h0] at h
  have hle : 2 ^ (rotWidth c - 1) ≤ c.numPatterns - 1 := Nat.log2_self_le hne
  omega

theorem rotIdxO_toNat {s : State} (h : s.blk.rotIdx < s.cfg.numPatterns) : (rotIdxO s).toNat = s.blk.rotIdx :=
  (BitVec.toNat_ofNat _ _).trans (Nat.mod_eq_of_lt (Nat.lt_of_lt_of_le h (numPatterns_le_two_pow_rotWidth s.cfg)))

/-- Settles O52: `P - 1`, the greatest index, lies between two powers of two by the laws of `Nat.log2`. -/
theorem outputPorts : Obligations.OutputPorts := by
  unfold Obligations.OutputPorts
  exact ⟨fun b => decide_eq_true_iff, fun s hI => ⟨rotIdxO_toNat hI.rotRange, Nat.le_add_left 1 _,
    numPatterns_le_two_pow_rotWidth s.cfg, two_pow_rotWidth_pred_lt⟩⟩

/-! ### STATUS -/

/-- The bits of STATUS, bit 0 first, without the reserved ones (10_state.md R24). -/
def statusBits (b : Block) : List Bool :=
  [b.txActive, b.lineQ.toBool, b.fault, b.cmdErr, (modeCode b.mode).getLsbD 0, (modeCode b.mode).getLsbD 1,
    frameKind b, phaseBit b, isYielding b]

/-- STATUS bit by bit: the listed bits, and 0 above them. -/
theorem status_getLsbD (b : Block) (i : Nat) : (status b).getLsbD i = (statusBits b).getD i false := by
  show BitVec.getLsbD (w := 7 + 1 + 1 + 1 + 2 + 1 + 1 + 1 + 1) _ i = _
  simp only [status, BitVec.getLsbD_append]
  match i with
  | 0 | 1 | 2 | 3 | 4 | 5 | 6 | 7 | 8 => simp [statusBits]
  | i + 9 => simp [statusBits]

theorem status_mode (b : Block) : (status b).extractLsb' 4 2 = modeCode b.mode := by
  refine BitVec.eq_of_getLsbD_eq fun i hi => ?_
  rw [BitVec.getLsbD_extractLsb', status_getLsbD]
  match i, hi with
  | 0, _ | 1, _ => simp [statusBits]

theorem status_reserved (b : Block) : (status b).extractLsb' 9 7 = 0#7 := by
  refine BitVec.eq_of_getLsbD_eq fun i _ => ?_
  have hbit : (statusBits b).getD (9 + i) false = false := by rw [Nat.add_comm]; rfl
  rw [BitVec.getLsbD_extractLsb', status_getLsbD, hbit, Bool.and_false, BitVec.getLsbD_zero]

theorem toBool_eq_true_iff (l : Level) : l.toBool = true ↔ l = .high := by cases l <;> simp [Level.toBool]

theorem isYielding_iff (b : Block) : isYielding b = true ↔ b.mode = .run ∧ b.runPhase = .yielding := by simp [isYielding]

/-- Settles O50: each single-bit field is read off the list of STATUS's bits, and the two wider ones have lemmas of their own. -/
theorem statusFields : Obligations.StatusFields := by
  unfold Obligations.StatusFields
  intro b
  simp only [status_getLsbD]
  refine ⟨rfl, toBool_eq_true_iff b.lineQ, rfl, rfl, ?_, decide_eq_true_iff, decide_eq_true_iff, isYielding_iff b,
    status_reserved b, rfl⟩
  rw [status_mode]
  cases b.mode <;> rfl

end Sys2Proof.Proofs
end

section
/-! The frame store (20_memory.md R51, R53): what the loading of the frames puts at each address, and that no run changes it. -/

namespace Sys2Proof.Proofs

open Sys2Proof.Machine Sys2Proof.Laws

/-! ### Frames of one length, laid out one after the other -/

theorem length_flatten_of_length_eq {n : Nat} {frames : List (List Byte)} (h : ∀ f ∈ frames, f.length = n) :
    frames.flatten.length = frames.length * n := by
  induction frames with
  | nil => simp
  | cons f frames ih =>
    obtain ⟨hf, hfs⟩ := List.forall_mem_cons.mp h
    rw [List.flatten_cons, List.length_append, ih hfs, hf, List.length_cons, Nat.succ_mul, Nat.add_comm]

/-- Byte `i` of frame `k` stands at `k · n + i` (20_memory.md R51). -/
theorem getElem?_flatten_of_length_eq {n k i : Nat} {frames : List (List Byte)} (h : ∀ f ∈ frames, f.length = n)
    (hi : i < n) : frames.flatten[k * n + i]? = (frames.getD k [])[i]? := by
  induction frames generalizing k with
  | nil => simp
  | cons f frames ih =>
    obtain ⟨hf, hfs⟩ := List.forall_mem_cons.mp h
    cases k with
    | zero => rw [Nat.zero_mul, Nat.zero_add, List.flatten_cons, List.getElem?_append_left (by omega), List.getD_cons_zero]
    | succ k =>
      have hskip : (k + 1) * n + i = f.length + (k * n + i) := by rw [hf, Nat.succ_mul]; omega
      rw [hskip, List.flatten_cons, List.getElem?_append_right (Nat.le_add_right _ _), Nat.add_sub_cancel_left, ih hfs,
        List.getD_cons_succ]

/-! ### The configuration made of parameters -/

section OfParams

variable {n p d : Nat} {r y : Int} {idle : List Byte} {pats : List (List Byte)} {c : Config}

/-- What `Config.ofParams` answers with: its parameters, and the frames one after the other, the idle frame first. -/
theorem ofParams_eq_some_iff : Config.ofParams n p d r y idle pats = some c ↔
    paramsOk n p d r y idle pats ∧
      { frameLen := n, numPatterns := p, bitUs := d, rotMs := r.toNat, yieldUs := y.toNat,
        store := Memory.load [] 0 (idle :: pats).flatten } = c := by
  simp only [Config.ofParams, List.flatten_cons, Option.ite_none_right_eq_some, Option.some.injEq]

theorem frames_length_eq (h : paramsOk n p d r y idle pats) : ∀ f ∈ idle :: pats, f.length = n := by
  obtain ⟨_, _, _, _, _, hidle, _, hpats⟩ := h
  exact List.forall_mem_cons.mpr ⟨hidle, hpats⟩

/-- The frames fill the frame store: `(P + 1) · N` bytes (20_memory.md R50). -/
theorem ofParams_length_frames (h : Config.ofParams n p d r y idle pats = some c) :
    (idle :: pats).flatten.length = c.storeSize := by
  obtain ⟨hok, rfl⟩ := ofParams_eq_some_iff.mp h
  have ⟨_, _, _, _, _, _, hcount, _⟩ := hok
  rw [length_flatten_of_length_eq (frames_length_eq hok), List.length_cons, hcount, Config.storeSize]

theorem ofParams_wf (h : Config.ofParams n p d r y idle pats = some c) : c.wf := by
  have hlen := ofParams_length_frames h
  obtain ⟨⟨hn, hp, hd, _⟩, rfl⟩ := ofParams_eq_some_iff.mp h
  refine ⟨hn, hp, hd, load_wf _ _ _ empty_wf, fun x hx => ?_⟩
  rcases mem_load _ _ _ x hx with hnil | ⟨_, hlt⟩
  · exact absurd hnil List.not_mem_nil
  · rwa [Nat.zero_add, hlen] at hlt

/-- Slot `k` of the frame store holds the `k`-th frame, the idle frame first (20_memory.md R51). -/
theorem ofParams_memRead {k i : Nat} (h : Config.ofParams n p d r y idle pats = some c) (hk : k ≤ c.numPatterns)
    (hi : i < c.frameLen) : memRead c (frameAddr c k i) = some (((idle :: pats).getD k []).getD i 0#8) := by
  have haddr := frameAddr_lt c k i hk hi
  have hloaded : 0 ≤ frameAddr c k i ∧ frameAddr c k i < 0 + (idle :: pats).flatten.length := by
    rw [ofParams_length_frames h]; omega
  rw [memRead_of_lt c _ haddr]
  obtain ⟨hok, rfl⟩ := ofParams_eq_some_iff.mp h
  rw [get_load _ _ _ _ empty_wf, if_pos hloaded, Nat.sub_zero, frameAddr, Memory.unlisted, List.getD_eq_getElem?_getD,
    List.getD_eq_getElem?_getD, getElem?_flatten_of_length_eq (frames_length_eq hok) hi]

end OfParams

/-- Settles O6: the parameters are read off, and the idle frame and pattern `q` are the frames of slots 0 and `1 + q`. -/
theorem frameStoreHoldsTheFrames : Obligations.FrameStoreHoldsTheFrames := by
  unfold Obligations.FrameStoreHoldsTheFrames
  intro n p d r y idle pats c h
  have hwf := ofParams_wf h
  obtain ⟨⟨_, _, _, hr, hy, _⟩, rfl⟩ := ofParams_eq_some_iff.mp h
  refine ⟨hwf, rfl, rfl, rfl, Int.toNat_of_nonneg hr, Int.toNat_of_nonneg hy, fun i hi => ?_, fun q i hq hi => ?_⟩
  · exact ofParams_memRead h (Nat.zero_le p) hi
  · rw [Nat.add_comm 1 q]
    exact ofParams_memRead h (Nat.succ_le_of_lt hq) hi

/-! ### No run changes the configuration -/

/-- The frame store is in the configuration, which neither a reset tick nor any part of another tick writes. -/
theorem step_next_cfg {s t : State} (h : step s = .next t) : t.cfg = s.cfg := by
  rcases step_next_frame s t h with ⟨_, rfl⟩ | ⟨_, u, rfl, hu⟩
  · simp
  · simp [hu.cfg]

theorem steps_next_cfg {n : Nat} {s t : State} (h : steps n s = .next t) : t.cfg = s.cfg := by
  induction n generalizing s with
  | zero => cases h; rfl
  | succ n ih =>
    rw [steps_succ] at h
    cases hs : step s with
    | next u =>
      rw [hs] at h
      exact (ih h).trans (step_next_cfg hs)
    | fault f => rw [hs] at h; cases h
    | refused e => rw [hs] at h; cases h

/-- Settles O8: the reads and the frames are functions of the configuration, which every run keeps. -/
theorem frameStoreNeverWritten : Obligations.FrameStoreNeverWritten := by
  unfold Obligations.FrameStoreNeverWritten
  intro n s t h
  have hcfg := steps_next_cfg h
  exact ⟨hcfg, fun a => by rw [hcfg], fun slot => by rw [hcfg]⟩

end Sys2Proof.Proofs
end

section
/-! Decoding and encoding are inverse to each other (30_encoding.md R70-R72), and what the table's words decode to. -/

namespace Sys2Proof.Proofs

/-! ### The fields of a word (R70) -/

theorem opField_append (op m : BitVec 4) : opField (op ++ m) = op := BitVec.extractLsb'_append_eq_left

theorem mbzField_append (op m : BitVec 4) : mbzField (op ++ m) = m := BitVec.extractLsb'_append_eq_right

/-- A word is its two fields. -/
theorem append_mbzField {w : Byte} {op : BitVec 4} (h : (opField w).toNat = op.toNat) : op ++ mbzField w = w := by
  rw [← BitVec.eq_of_toNat_eq h]
  exact BitVec.extractLsb'_append_extractLsb'_eq_extractLsb' (x := w) (by decide) |>.trans BitVec.extractLsb'_eq_self

/-! ### The five rows of a legal `OP` (R72) -/

/-- `MBZ` is 0, or it is its highest set bit and the bits below. -/
theorem mbz_cases (m : BitVec 4) :
    m = 0#4 ∨ (∃ x : BitVec 3, m = 1#1 ++ x) ∨ (∃ x : BitVec 2, m = 1#2 ++ x) ∨ (∃ x : BitVec 1, m = 1#3 ++ x) ∨
      m = 1#4 := by
  revert m; decide

/-- The rows `legal`, `1xxx`, `01xx`, `001x` and `0001` are those of one `OP`, to the encoder and to the decoder. -/
structure MbzRows (op : BitVec 4) (legal : Instr) (r1xxx : BitVec 3 → Instr) (r01xx : BitVec 2 → Instr)
    (r001x : BitVec 1 → Instr) (r0001 : Instr) : Prop where
  decode_append : ∀ m, decode (op ++ m) = decodeMbz legal r1xxx r01xx r001x r0001 m
  encode_legal : encode legal = op ++ 0#4
  encode_1xxx : ∀ x, encode (r1xxx x) = op ++ (1#1 ++ x)
  encode_01xx : ∀ x, encode (r01xx x) = op ++ (1#2 ++ x)
  encode_001x : ∀ x, encode (r001x x) = op ++ (1#3 ++ x)
  encode_0001 : encode r0001 = op ++ 1#4

section MbzRows

variable {op : BitVec 4} {legal r0001 : Instr} {r1xxx : BitVec 3 → Instr} {r01xx : BitVec 2 → Instr}
  {r001x : BitVec 1 → Instr}

theorem decodeMbz_1xxx (x : BitVec 3) : decodeMbz legal r1xxx r01xx r001x r0001 (1#1 ++ x) = r1xxx x := by
  have hbits : 1#1 ++ x ≠ 0#4 ∧ (1#1 ++ x).getLsbD 3 = true ∧ (1#1 ++ x).extractLsb' 0 3 = x := by revert x; decide
  simp only [decodeMbz, hbits, if_true, if_false]

theorem decodeMbz_01xx (x : BitVec 2) : decodeMbz legal r1xxx r01xx r001x r0001 (1#2 ++ x) = r01xx x := by
  have hbits : 1#2 ++ x ≠ 0#4 ∧ (1#2 ++ x).getLsbD 3 = false ∧ (1#2 ++ x).getLsbD 2 = true ∧
      (1#2 ++ x).extractLsb' 0 2 = x := by revert x; decide
  simp only [decodeMbz, hbits, if_true, if_false, Bool.false_eq_true]

theorem decodeMbz_001x (x : BitVec 1) : decodeMbz legal r1xxx r01xx r001x r0001 (1#3 ++ x) = r001x x := by
  have hbits : 1#3 ++ x ≠ 0#4 ∧ (1#3 ++ x).getLsbD 3 = false ∧ (1#3 ++ x).getLsbD 2 = false ∧
      (1#3 ++ x).getLsbD 1 = true ∧ (1#3 ++ x).extractLsb' 0 1 = x := by revert x; decide
  simp only [decodeMbz, hbits, if_true, if_false, Bool.false_eq_true]

/-- Encoding what `MBZ` decodes to under `OP` gives the word back. -/
theorem encode_decodeMbz (h : MbzRows op legal r1xxx r01xx r001x r0001) (m : BitVec 4) :
    encode (decodeMbz legal r1xxx r01xx r001x r0001 m) = op ++ m := by
  rcases mbz_cases m with rfl | ⟨x, rfl⟩ | ⟨x, rfl⟩ | ⟨x, rfl⟩ | rfl
  · exact h.encode_legal
  · rw [decodeMbz_1xxx, h.encode_1xxx]
  · rw [decodeMbz_01xx, h.encode_01xx]
  · rw [decodeMbz_001x, h.encode_001x]
  · exact h.encode_0001

theorem decode_encode_legal (h : MbzRows op legal r1xxx r01xx r001x r0001) : decode (encode legal) = legal := by
  rw [h.encode_legal, h.decode_append]; rfl

theorem decode_encode_1xxx (h : MbzRows op legal r1xxx r01xx r001x r0001) (x : BitVec 3) :
    decode (encode (r1xxx x)) = r1xxx x := by
  rw [h.encode_1xxx, h.decode_append, decodeMbz_1xxx]

theorem decode_encode_01xx (h : MbzRows op legal r1xxx r01xx r001x r0001) (x : BitVec 2) :
    decode (encode (r01xx x)) = r01xx x := by
  rw [h.encode_01xx, h.decode_append, decodeMbz_01xx]

theorem decode_encode_001x (h : MbzRows op legal r1xxx r01xx r001x r0001) (x : BitVec 1) :
    decode (encode (r001x x)) = r001x x := by
  rw [h.encode_001x, h.decode_append, decodeMbz_001x]

theorem decode_encode_0001 (h : MbzRows op legal r1xxx r01xx r001x r0001) : decode (encode r0001) = r0001 := by
  rw [h.encode_0001, h.decode_append]; rfl

end MbzRows

theorem mbzRows_nop : MbzRows 0#4 .nop .reservedMbzOp0_1xxx .reservedMbzOp0_01xx .reservedMbzOp0_001x
    .reservedMbzOp0_0001 := by
  constructor
  · intro m; simp only [decode, opField_append, mbzField_append]; rfl
  all_goals decide

theorem mbzRows_run : MbzRows 1#4 .run .reservedMbzOp1_1xxx .reservedMbzOp1_01xx .reservedMbzOp1_001x
    .reservedMbzOp1_0001 := by
  constructor
  · intro m; simp only [decode, opField_append, mbzField_append]; rfl
  all_goals decide

theorem mbzRows_txIdle : MbzRows 2#4 .txIdle .reservedMbzOp2_1xxx .reservedMbzOp2_01xx .reservedMbzOp2_001x
    .reservedMbzOp2_0001 := by
  constructor
  · intro m; simp only [decode, opField_append, mbzField_append]; rfl
  all_goals decide

theorem mbzRows_txNext : MbzRows 3#4 .txNext .reservedMbzOp3_1xxx .reservedMbzOp3_01xx .reservedMbzOp3_001x
    .reservedMbzOp3_0001 := by
  constructor
  · intro m; simp only [decode, opField_append, mbzField_append]; rfl
  all_goals decide

/-! ### Both ways round -/

theorem decode_encode (i : Instr) : decode (encode i) = i := by
  cases i with
  | nop => exact decode_encode_legal mbzRows_nop
  | reservedMbzOp0_1xxx x => exact decode_encode_1xxx mbzRows_nop x
  | reservedMbzOp0_01xx x => exact decode_encode_01xx mbzRows_nop x
  | reservedMbzOp0_001x x => exact decode_encode_001x mbzRows_nop x
  | reservedMbzOp0_0001 => exact decode_encode_0001 mbzRows_nop
  | run => exact decode_encode_legal mbzRows_run
  | reservedMbzOp1_1xxx x => exact decode_encode_1xxx mbzRows_run x
  | reservedMbzOp1_01xx x => exact decode_encode_01xx mbzRows_run x
  | reservedMbzOp1_001x x => exact decode_encode_001x mbzRows_run x
  | reservedMbzOp1_0001 => exact decode_encode_0001 mbzRows_run
  | txIdle => exact decode_encode_legal mbzRows_txIdle
  | reservedMbzOp2_1xxx x => exact decode_encode_1xxx mbzRows_txIdle x
  | reservedMbzOp2_01xx x => exact decode_encode_01xx mbzRows_txIdle x
  | reservedMbzOp2_001x x => exact decode_encode_001x mbzRows_txIdle x
  | reservedMbzOp2_0001 => exact decode_encode_0001 mbzRows_txIdle
  | txNext => exact decode_encode_legal mbzRows_txNext
  | reservedMbzOp3_1xxx x => exact decode_encode_1xxx mbzRows_txNext x
  | reservedMbzOp3_01xx x => exact decode_encode_01xx mbzRows_txNext x
  | reservedMbzOp3_001x x => exact decode_encode_001x mbzRows_txNext x
  | reservedMbzOp3_0001 => exact decode_encode_0001 mbzRows_txNext
  | _ m => simp only [encode, decode, opField_append, mbzField_append]; rfl

/-- By `OP`: four groups of rows, and twelve rows that keep `MBZ` whole. -/
theorem encode_decode (w : Byte) : encode (decode w) = w := by
  have hlt : (opField w).toNat < 16 := (opField w).isLt
  unfold decode
  match hop : (opField w).toNat, hlt with
  | 0, _ => exact (encode_decodeMbz mbzRows_nop _).trans (append_mbzField hop)
  | 1, _ => exact (encode_decodeMbz mbzRows_run _).trans (append_mbzField hop)
  | 2, _ => exact (encode_decodeMbz mbzRows_txIdle _).trans (append_mbzField hop)
  | 3, _ => exact (encode_decodeMbz mbzRows_txNext _).trans (append_mbzField hop)
  | 4, _ | 5, _ | 6, _ | 7, _ | 8, _ | 9, _ | 10, _ | 11, _ | 12, _ | 13, _ | 14, _ | 15, _ =>
    exact append_mbzField hop
  | _ + 16, h => exact absurd h (by omega)

/-- Settles O1: the two ways round, each by the rows of one `OP` and the rows that keep `MBZ` whole. -/
theorem decodeEncodeInverse : Obligations.DecodeEncodeInverse :=
  ⟨decode_encode, encode_decode⟩

/-- Settles O3: each word is the encoding of its row. -/
theorem wordsDecodeAsTheTableSays : Obligations.WordsDecodeAsTheTableSays :=
  ⟨decode_encode .nop, decode_encode .run, decode_encode .txIdle, decode_encode .txNext,
    decode_encode .reservedMbzOp1_0001, decode_encode (.reservedOp4 0#4), decode_encode (.reservedMbzOp0_1xxx 0#3),
    decode_encode (.reservedOpF 15#4)⟩

end Sys2Proof.Proofs
end

section
/-! The assembler and the disassembler of one command (30_encoding.md R79). -/

namespace Sys2Proof.Proofs

open Sys2Proof.Machine

/-! ### Legal words -/

theorem isLegal_iff (i : Instr) : i.isLegal = true ↔ i = .nop ∨ i = .run ∨ i = .txIdle ∨ i = .txNext := by
  cases i <;> simp [Instr.isLegal]

theorem decode_eq_iff (w : Byte) (i : Instr) : decode w = i ↔ w = encode i :=
  ⟨fun h => by rw [← h, encode_decode], fun h => by rw [h, decode_encode]⟩

/-- The legal words are the four of R71. -/
theorem isLegal_decode_iff (w : Byte) :
    (decode w).isLegal = true ↔ w = 0x00#8 ∨ w = 0x10#8 ∨ w = 0x20#8 ∨ w = 0x30#8 := by
  simp only [isLegal_iff, decode_eq_iff]
  rfl

/-! ### Bytes as text -/

theorem digitValue?_hexChar {n : Nat} (hn : n < 16) : digitValue? 16 (hexChar n) = some n := by
  revert n; decide

theorem numeral?_hexChar_pair {h l : Nat} (hh : h < 16) (hl : l < 16) :
    numeral? 16 [hexChar h, hexChar l] = some (16 * h + l) := by
  simp [numeral?, digitValue?_hexChar hh, digitValue?_hexChar hl]

/-- A byte's text reads as the byte. -/
theorem byte?_byteText (w : Byte) : byte? (byteText w) = some w := by
  have hhigh : w.toNat / 16 < 16 := Nat.div_lt_of_lt_mul w.isLt
  have hlow : w.toNat % 16 < 16 := Nat.mod_lt _ (by decide)
  rw [byteText, byte?, numeral?_hexChar_pair hhigh hlow, Nat.div_add_mod, Option.map_some, BitVec.ofNat_toNat,
    BitVec.setWidth_eq]

/-! ### The assembler and the disassembler -/

theorem assemble?_cmd (w : Byte) : assemble? [".cmd".toList, byteText w] = some w := byte?_byteText w

theorem assemble?_eq_none {m : List Char} (hnop : m ≠ "NOP".toList) (hrun : m ≠ "RUN".toList)
    (hidle : m ≠ "TX_IDLE".toList) (hnext : m ≠ "TX_NEXT".toList) : assemble? [m] = none := by
  rw [assemble?, if_neg hnop, if_neg hrun, if_neg hidle, if_neg hnext]

theorem disassemble_eq (w : Byte) : disassemble w =
    if w = 0x00#8 then ["NOP".toList] else if w = 0x10#8 then ["RUN".toList]
    else if w = 0x20#8 then ["TX_IDLE".toList] else if w = 0x30#8 then ["TX_NEXT".toList]
    else [".cmd".toList, byteText w] := by
  by_cases hlegal : (decode w).isLegal = true
  · rcases (isLegal_decode_iff w).mp hlegal with rfl | rfl | rfl | rfl <;> rfl
  · have hw := hlegal
    simp only [isLegal_decode_iff, not_or] at hw
    obtain ⟨hnop, hrun, hidle, hnext⟩ := hw
    rw [disassemble, if_neg hlegal, if_neg hnop, if_neg hrun, if_neg hidle, if_neg hnext]

theorem assemble?_disassemble (w : Byte) : assemble? (disassemble w) = some w := by
  by_cases hlegal : (decode w).isLegal = true
  · rcases (isLegal_decode_iff w).mp hlegal with rfl | rfl | rfl | rfl <;> rfl
  · rw [disassemble, if_neg hlegal, assemble?_cmd]

/-- Settles O4: the mnemonics by running the assembler on them, and the rest of the words by their text. -/
theorem assembleDisassemble : Obligations.AssembleDisassemble :=
  ⟨rfl, rfl, rfl, rfl, fun _ => assemble?_eq_none, assemble?_cmd, disassemble_eq, assemble?_disassemble⟩

end Sys2Proof.Proofs
end

section
/-! The line sequence of a frame (30_encoding.md R74, R75). -/

namespace Sys2Proof.Proofs

open Sys2Proof.Machine

theorem ofBool_eq_ite (b : Bool) : Level.ofBool b = if b then .high else .low := by cases b <;> rfl

theorem byteLevels_length (b : Byte) : (byteLevels b).length = 8 := rfl

/-- One byte, most significant bit first. -/
theorem getElem?_byteLevels (b : Byte) {k : Nat} (hk : k < 8) :
    (byteLevels b)[k]? = some (if b.getLsbD (7 - k) then .high else .low) := by
  have hmap : byteLevels b = (List.range 8).map fun k => Level.ofBool (b.getLsbD (7 - k)) := rfl
  rw [hmap, List.getElem?_map, List.getElem?_range hk, Option.map_some, ofBool_eq_ite]

theorem levels_cons (b : Byte) (frame : List Byte) : levels (b :: frame) = byteLevels b ++ levels frame := rfl

theorem levels_length (frame : List Byte) : (levels frame).length = 8 * frame.length := by
  induction frame with
  | nil => rfl
  | cons b frame ih =>
    rw [levels_cons, List.length_append, byteLevels_length, ih, List.length_cons, Nat.mul_succ, Nat.add_comm]

/-- The byte in front takes the first 8 elements, and element `k + 8` is element `k` of the rest. -/
theorem getElem?_levels (frame : List Byte) {k : Nat} (hk : k < 8 * frame.length) :
    (levels frame)[k]? = some (if (frame.getD (k / 8) 0#8).getLsbD (7 - k % 8) then .high else .low) := by
  induction frame generalizing k with
  | nil => exact absurd hk (Nat.not_lt_zero k)
  | cons b frame ih =>
    rw [levels_cons]
    rcases Nat.lt_or_ge k 8 with hlt | hge
    · rw [List.getElem?_append_left hlt, getElem?_byteLevels b hlt, Nat.div_eq_of_lt hlt, Nat.mod_eq_of_lt hlt,
        List.getD_cons_zero]
    · obtain ⟨j, rfl⟩ := Nat.exists_eq_add_of_le' hge
      have hj : j < 8 * frame.length := by rw [List.length_cons] at hk; omega
      rw [List.getElem?_append_right hge, byteLevels_length, Nat.add_sub_cancel, ih hj, Nat.add_div_right j (by decide),
        Nat.add_mod_right, List.getD_cons_succ]

/-- Settles O5: the length and each element, by induction on the frame. -/
theorem levelsAreMsbFirst : Obligations.LevelsAreMsbFirst :=
  fun frame => ⟨levels_length frame, fun _ => getElem?_levels frame⟩

end Sys2Proof.Proofs
end

section
/-! The slot of a send: that of its kind, kept by every step (30_encoding.md R73). -/

namespace Sys2Proof.Proofs

open Sys2Proof.Machine Sys2Proof.Laws

section SlotAgrees

variable {s : State} {slot : Nat} {b : Block}

/-- A block that is READY or HALTED sends nothing. -/
theorem slotAgrees_of_not_sending (hm : s.blk.mode = .ready ∨ s.blk.mode = .halted) : SlotAgrees s := by
  constructor <;> rcases hm with hm | hm <;> simp [hm]

theorem slotAgrees_of_run (hm : s.blk.mode = .run) (hi : s.blk.runPhase = .idleTx → s.blk.txSlot = 0)
    (hp : s.blk.runPhase = .patternTx → s.blk.txSlot = 1 + s.blk.rotIdx) : SlotAgrees s where
  oneshotIdle ho := by simp [hm] at ho
  oneshotPattern ho := by simp [hm] at ho
  runIdle _ := hi
  runPattern _ := hp

/-- The agreement speaks of the record only. -/
theorem slotAgrees_of_blk {t : State} (hb : t.blk = s.blk) (h : SlotAgrees s) : SlotAgrees t := by
  cases t
  cases hb
  exact { h with }

/-- Each cause of a start gives `tx_start` the slot of the kind of send it starts (44_pattern_library.md R150, R151). -/
theorem slotAgrees_started (hc : StartCause s slot b) : SlotAgrees { s with blk := startedBlock s.cfg slot b } := by
  cases hc with
  | run => exact slotAgrees_of_run rfl (fun _ => rfl) nofun
  | txIdle => exact ⟨fun _ _ => rfl, nofun, nofun, nofun⟩
  | txNext => exact ⟨nofun, fun _ _ => rfl, nofun, nofun⟩
  | pattern hm => exact slotAgrees_of_run hm nofun fun _ => rfl
  | idleAgain hm | afterPattern hm | yieldEnd hm => exact slotAgrees_of_run hm (fun _ => rfl) nofun

/-- The rotation index moves only in a tick that ends the send, or that starts an idle send (44_pattern_library.md R152). -/
theorem slotAgrees_tickCase (hS : SlotAgrees s) (h : TickCase s b) : SlotAgrees { s with blk := b } := by
  cases h with
  | start slot b hc => exact slotAgrees_started hc
  | startFails | nextBitFails | nextByteFails | gapWriteFails => exact slotAgrees_of_not_sending (.inr rfl)
  | oneshotDone => exact slotAgrees_of_not_sending (.inl rfl)
  | idleThenYield hm | patternThenYield hm => exact slotAgrees_of_run hm nofun nofun
  | _ => exact { hS with }

end SlotAgrees

/-- Settles O24: reset leaves a READY block, and each case of another tick keeps the kind and the slot of a send together. -/
theorem stepKeepsSlotAgreement : Obligations.StepKeepsSlotAgreement := by
  unfold Obligations.StepKeepsSlotAgreement
  intro s t hI hS h
  rcases step_next_cases s t hI h with ⟨_, rfl⟩ | ⟨_, b, hb, rfl⟩
  · exact slotAgrees_of_not_sending (.inl (by rw [closeTick_blk]; rfl))
  · exact slotAgrees_of_blk (closeTick_blk _) { slotAgrees_tickCase hS hb with }

end Sys2Proof.Proofs
end

section
/-! Time (40_bit_timer.md R101, R102): what every tick does to `now_us`, and the millisecond clock read off it. -/

namespace Sys2Proof.Proofs

open Sys2Proof.Machine Sys2Proof.Laws

/-! ### `now_us` -/

/-- Part C alone writes `now_us`, of whatever parts A and B leave, a fault entry included; a reset tick has no part C. -/
theorem step_next_nowUs {s t : State} (h : step s = .next t) :
    t.blk.nowUs = if s.ports.rst then 0#64 else s.blk.nowUs + 1#64 := by
  rcases step_next_frame s t h with ⟨hr, rfl⟩ | ⟨hr, u, rfl, hu⟩
  · simp [hr, Block.reset]
  · simp [hr, hu.nowUs]

/-- A run that answers is a step that answers and then the rest of the run. -/
theorem steps_succ_eq_next_iff {n : Nat} {s t : State} :
    steps (n + 1) s = .next t ↔ ∃ u, step s = .next u ∧ steps n u = .next t := by
  rw [steps_succ]
  cases step s <;> simp

/-- No reset in the next `n + 1` ticks: none in this one, and none in the next `n` seen from the state after it. -/
theorem noReset_succ {n : Nat} {s u : State} (hr : noReset s (n + 1)) (h : step s = .next u) :
    s.ports.rst = false ∧ noReset u n :=
  ⟨hr 0 n.succ_pos, fun k hk => by rw [inputsAt_step s u h]; exact hr (k + 1) (Nat.succ_lt_succ hk)⟩

theorem steps_next_nowUs {n : Nat} {s t : State} (hr : noReset s n) (h : steps n s = .next t) :
    t.blk.nowUs = s.blk.nowUs + BitVec.ofNat 64 n := by
  induction n generalizing s with
  | zero => cases h; simp
  | succ n ih =>
    obtain ⟨u, hu, ht⟩ := steps_succ_eq_next_iff.mp h
    obtain ⟨hrst, hru⟩ := noReset_succ hr hu
    calc t.blk.nowUs = u.blk.nowUs + BitVec.ofNat 64 n := ih hru ht
      _ = s.blk.nowUs + 1#64 + BitVec.ofNat 64 n := by simp [step_next_nowUs hu, hrst]
      _ = s.blk.nowUs + BitVec.ofNat 64 (n + 1) := by rw [Nat.add_comm n 1, BitVec.ofNat_add, BitVec.add_assoc]

/-- Settles O53: the equation of one step, and by induction that of a run without reset. -/
theorem timeAdvancesEveryTick : Obligations.TimeAdvancesEveryTick :=
  ⟨fun _ _ => step_next_nowUs, fun _ _ _ => steps_next_nowUs⟩

/-! ### `now_ms` -/

theorem nowMs_toNat (b : Block) : (nowMs b).toNat = b.nowUs.toNat / 1000 := BitVec.toNat_udiv

/-- Settles O54: `now_us` is below `2^64`, and division by 1000 is monotone. -/
theorem millisecondClockTruncates : Obligations.MillisecondClockTruncates := fun b =>
  ⟨nowMs_toNat b, nowMs_toNat b ▸ Nat.div_le_div_right (Nat.le_of_lt b.nowUs.isLt)⟩

end Sys2Proof.Proofs
end

section
/-! The hardware encoder sends `encode(F)` (41_frame_encoder.md R110, R111): the line and the working byte of a bit cell, kept by
every step. -/

namespace Sys2Proof.Proofs

open Sys2Proof.Machine Sys2Proof.Laws

/-- Element `8·i + j` of the line sequence of a slot's frame is bit `7 - j` of byte `i` (30_encoding.md R74, R75). -/
theorem getElem?_levels_frameOf (c : Config) (slot : Nat) {i j : Nat} (hi : i < c.frameLen) (hj : j < 8) :
    (levels (frameOf c slot))[8 * i + j]? =
      some (if (c.store.get (frameAddr c slot i)).getLsbD (7 - j) then .high else .low) := by
  have hlen : (frameOf c slot).length = c.frameLen := by simp [frameOf]
  have hdiv : (8 * i + j) / 8 = i := by omega
  have hmod : (8 * i + j) % 8 = j := by omega
  rw [getElem?_levels _ (by omega), hdiv, hmod]
  simp [frameOf, hi]

section EncoderAgrees

variable {s t : State} {b : Block} {w : Byte}

/-! ### What the agreement asks of each kind of record -/

/-- The agreement speaks of the configuration and the record only. -/
theorem encoderAgrees_of_same (hc : t.cfg = s.cfg) (hb : t.blk = s.blk) (h : EncoderAgrees s) : EncoderAgrees t := by
  cases t
  cases hc
  cases hb
  exact { h with }

/-- No cell is being sent or has failed in a record whose phase is GAP. -/
theorem encoderAgrees_of_gap (hp : s.blk.txPhase = .gap) : EncoderAgrees s := by
  constructor <;> simp [hp]

/-- RESET sends nothing and has no fault (70_reset_and_hazards.md R220). -/
theorem encoderAgrees_takeReset (s : State) : EncoderAgrees (takeReset s) := ⟨nofun, nofun, nofun, nofun⟩

/-- A bit write of the working byte `w` that took effect: the level is bit 7 of `w`, and `w` is shifted once more
(43_frame_transmitter.md R131). -/
theorem encoderAgrees_of_bitWritten (hI : StateOk s) (ht : s.blk.txActive = true)
    (hw : w = currentByte s <<< s.blk.bitIdx) (hline : s.blk.lineQ = sendLevel w) (hwork : s.blk.workByte = shiftByte w) :
    EncoderAgrees s := by
  have hbit : s.blk.lineQ = if (currentByte s).getLsbD (7 - s.blk.bitIdx) then .high else .low := by
    rw [hline, hw, sendLevel_shift _ _ hI.bitRange]
  have hfault := fault_eq_false_of_not_halted hI (not_halted_of_active hI ht)
  exact {
    lineShows := fun _ _ => by rw [getElem?_levels_frameOf _ _ hI.byteRange hI.bitRange, hbit, currentByte]
    lineBit := fun _ _ => hbit
    workShifted := fun _ _ => by rw [hwork, hw, shiftByte_shift]
    workKept := by simp [hfault] }

/-- A bit write that failed: the working byte keeps the level not written in bit 7 (60_exceptions.md R202). -/
theorem encoderAgrees_of_bitFailed (ht : s.blk.txActive = false)
    (hwork : s.blk.workByte = currentByte s <<< s.blk.bitIdx) : EncoderAgrees s := by
  constructor <;> simp [ht, hwork]

/-! ### Each case of a tick keeps the agreement -/

/-- A bit write sends a byte just loaded, which is not shifted yet, or the working byte of the cell before. -/
theorem encoderAgrees_tickCase (hI : StateOk s) (hE : EncoderAgrees s) (h : TickCase s b) :
    EncoderAgrees { s with blk := b } := by
  have hT := stateOk_tickCase hI h
  cases h with
  | start =>
    exact encoderAgrees_of_bitWritten hT rfl (BitVec.shiftLeft_zero _).symm (sendLevel_eq _).symm rfl
  | nextByte ht => exact encoderAgrees_of_bitWritten hT ht (BitVec.shiftLeft_zero _).symm rfl rfl
  | nextBit ht hp => exact encoderAgrees_of_bitWritten hT ht (hE.workShifted ht hp) rfl rfl
  | startFails | nextByteFails => exact encoderAgrees_of_bitFailed rfl (BitVec.shiftLeft_zero _).symm
  | nextBitFails ht hp => exact encoderAgrees_of_bitFailed rfl (hE.workShifted ht hp)
  | gapWrite | gapWriteFails => exact encoderAgrees_of_gap rfl
  | oneshotDone _ hd | idleThenYield _ _ hd | patternThenYield _ _ hd =>
    obtain ⟨_, hp, _⟩ := (txDone_iff s).mp hd
    exact encoderAgrees_of_gap hp
  | still | nop | illegal | inside | gapCount | yieldCount => exact { hE with }

end EncoderAgrees

/-- Settles O23: a step is a reset tick, which gives RESET, or one of the cases of a tick, each of which keeps the agreement. -/
theorem stepKeepsEncoderAgreement : Obligations.StepKeepsEncoderAgreement := by
  unfold Obligations.StepKeepsEncoderAgreement
  intro s t hI hE h
  rcases step_next_cases s t hI h with ⟨_, rfl⟩ | ⟨_, b, hb, rfl⟩
  · exact encoderAgrees_of_same (closeTick_cfg _) (closeTick_blk _) (encoderAgrees_takeReset s)
  · exact encoderAgrees_of_same (closeTick_cfg _) (closeTick_blk _) { encoderAgrees_tickCase hI hE hb with }

end Sys2Proof.Proofs
end

section
/-! The line and the pad (42_line_driver.md R121, R122): the ticks that change `line_q`, and what every tick shows on the pad. -/

namespace Sys2Proof.Proofs

open Sys2Proof.Machine Sys2Proof.Laws

/-! ### The line -/

section Line

variable {s : State} {b : Block}

/-- A bit cell that has had its `D` ticks gives way to the next bit write or to the gap write (43_frame_transmitter.md R133, R134). -/
theorem writesLine_of_cellElapsed (ht : s.blk.txActive = true) (hp : s.blk.txPhase = .bit) (hc : s.blk.cnt = s.cfg.bitUs) :
    writesLine s = true := by
  simp [writesLine, ht, hp, hc]

/-- The cases of a tick that give the line a level are the writes of a started transmission, of the next cell and of the gap,
each of which may fail instead. -/
theorem tickCase_lineQ_changed (h : TickCase s b) (hne : b.lineQ ≠ s.blk.lineQ) : writesLine s = true := by
  cases h
  case start hc _ | startFails hc _ => exact startCause_writesLine hc
  case nextBit ht hp hc _ _ | nextBitFails ht hp hc _ _ | nextByte ht hp hc _ _ _ | nextByteFails ht hp hc _ _ _
      | gapWrite ht hp hc _ _ _ | gapWriteFails ht hp hc _ _ _ =>
    exact writesLine_of_cellElapsed ht hp hc
  case still | nop | illegal | inside | gapCount | oneshotDone | idleThenYield | patternThenYield | yieldCount =>
    exact absurd rfl hne

end Line

/-- Settles O47: a step is a reset tick or a case of a tick, followed by part C, which leaves the line alone. -/
theorem lineHasASingleWriter : Obligations.LineHasASingleWriter := by
  unfold Obligations.LineHasASingleWriter
  intro s t hI h hne
  rcases step_next_cases s t hI h with ⟨hr, _⟩ | ⟨_, b, hb, rfl⟩
  · exact .inl hr
  · exact .inr (tickCase_lineQ_changed hb (by simpa using hne))

/-! ### The pad -/

theorem closeTick_padDraws_of_ready {s : State} (h : s.ports.pinReady = true) : (closeTick s).padDraws = s.padDraws := by
  simp [closeTick, latchPad, h]

theorem closeTick_padDraws_of_not_ready {s : State} (h : s.ports.pinReady = false) :
    (closeTick s).padDraws = s.padDraws + 1 := by
  simp [closeTick, latchPad, h]

/-- Every step ends in `closeTick`, of a state with the inputs and the draws the step began with: reset and parts A, B and C leave
both alone. -/
theorem step_next_closeTick {s t : State} (h : step s = .next t) :
    ∃ u, t = closeTick u ∧ u.ports = s.ports ∧ u.padDraws = s.padDraws := by
  rcases step_next_frame s t h with ⟨_, ht⟩ | ⟨_, u, ht, hu⟩
  · exact ⟨takeReset s, ht, rfl, rfl⟩
  · exact ⟨advanceTime u, ht, hu.ports, hu.padDraws⟩

/-- Settles O48: the pad and the draw counter are what `closeTick` makes of the state it closes. -/
theorem padFollowsTheLine : Obligations.PadFollowsTheLine := by
  unfold Obligations.PadFollowsTheLine
  intro s t h
  obtain ⟨u, rfl, hports, hdraws⟩ := step_next_closeTick h
  rw [← hports, ← hdraws, closeTick_blk]
  exact ⟨fun hp => ⟨closeTick_pad_of_ready u hp, closeTick_padDraws_of_ready hp⟩,
    fun hp => ⟨closeTick_pad_of_not_ready u hp, closeTick_padDraws_of_not_ready hp⟩⟩

end Sys2Proof.Proofs
end

section
/-! The transmitter, one tick at a time (43_frame_transmitter.md R132-R135): a bit cell, the next cell, the gap write, the gap
and the end of a one-shot. -/

namespace Sys2Proof.Proofs

open Sys2Proof.Machine Sys2Proof.Laws

section Tick

variable {s s' : State}

/-! ### Part A in a bit cell, and the ticks part A ends -/

theorem partA_of_inside (ht : s.blk.txActive = true) (hp : s.blk.txPhase = .bit) (hc : s.blk.cnt < s.cfg.bitUs) :
    partA s = .go (countTick s) := by
  simp [partA, ht, hp, hc]

theorem partA_of_notLastCell (ht : s.blk.txActive = true) (hp : s.blk.txPhase = .bit) (hc : s.blk.cnt = s.cfg.bitUs)
    (hl : ¬(s.blk.bitIdx = 7 ∧ s.blk.byteIdx = s.cfg.frameLen - 1)) : partA s = nextCell s := by
  rw [← lastCell_iff] at hl
  simp [partA, ht, hp, hc, hl]

theorem partA_of_lastCell (ht : s.blk.txActive = true) (hp : s.blk.txPhase = .bit) (hc : s.blk.cnt = s.cfg.bitUs)
    (hl : s.blk.bitIdx = 7 ∧ s.blk.byteIdx = s.cfg.frameLen - 1) : partA s = gapWrite s := by
  rw [← lastCell_iff] at hl
  simp [partA, ht, hp, hc, hl]

theorem txDone_of_bit (hp : s.blk.txPhase = .bit) : txDone s = false := by simp [txDone, hp]

theorem txDone_of_cnt_lt (hc : s.blk.cnt < 8 * s.cfg.bitUs) : txDone s = false := by
  rw [Bool.eq_false_iff, ne_eq, txDone_iff]
  exact fun ⟨_, _, hge⟩ => hge hc

/-- A line write of part A that raised ends the tick: part B is skipped, and part C still happens (46_commands.md R188). -/
theorem step_of_raised {p : FaultPos} (hI : StateOk s) (hr : s.ports.rst = false) (hA : partA s = .raised p s') :
    step s = .next (closeTickC s') := by
  rw [step_eq_tick s hI, tick_of_raised s s' p hr hA]

/-! ### The completion of a one-shot -/

/-- One-shot completion makes the mode READY and advances the index for a pattern only (46_commands.md R187). -/
theorem oneshotEnd_blk (s : State) : oneshotEnd s = { s with blk := { s.blk with
    mode := .ready
    rotIdx := if s.blk.osKind = .pattern then (s.blk.rotIdx + 1) % s.cfg.numPatterns else s.blk.rotIdx } } := by
  unfold oneshotEnd
  cases s.blk.osKind <;> rfl

theorem step_of_oneshotDone (hI : StateOk s) (hr : s.ports.rst = false) (hm : s.blk.mode = .oneshot)
    (hd : txDone s = true) :
    step s = .next (closeTickC (oneshotEnd { s with blk := { s.blk with txActive := false } })) := by
  obtain ⟨ht, hp, _⟩ := (txDone_iff s).mp hd
  rw [step_eq_tick s hI, tick_of_go s _ hr (partA_of_gap s ht hp), gapTick_of_done s hd]
  simp [partB, hm, hd, closeOutcome]

end Tick

/-- Settles O26: part A counts and part B waits; with `D = 1` the count of a cell is never below `D`, since it is at least 1. -/
theorem insideBitCellCounts : Obligations.InsideBitCellCounts := by
  unfold Obligations.InsideBitCellCounts
  refine ⟨fun s hI hr ht hp hc => case_of_go s _ hI hr (partA_of_inside ht hp hc) ht (txDone_of_bit hp),
    fun s hI ht hp hD => ?_⟩
  have hcnt := hI.bitCnt ht hp
  omega

/-- Settles O27: part A is the next cell, which the pin lets write its bit or not, in this byte or in the next one. -/
theorem nextCellStarts : Obligations.NextCellStarts := by
  unfold Obligations.NextCellStarts
  intro s hI hr ht hp hc hl next
  have hA := partA_of_notLastCell ht hp hc hl
  have hd := txDone_of_bit hp
  have hslot := hI.slotRange
  have hbyte : s.blk.bitIdx = 7 → s.blk.byteIdx + 1 < s.cfg.frameLen := by have := hI.byteRange; omega
  rw [← sendLevel_eq, ← sendLevel_eq]
  refine ⟨fun hb hpin => ?_, fun hb hpin => ?_, fun hb hpin => ?_, fun hb hpin => ?_⟩
  · exact case_of_go s _ hI hr (hA.trans (nextCell_bit_of_ready s hb hpin)) ht hd
  · exact step_of_raised hI hr (hA.trans (nextCell_bit_of_not_ready s hb hpin))
  · exact case_of_go s _ hI hr (hA.trans (nextCell_byte_of_ready s (by omega) hslot (hbyte hb) hpin)) ht hd
  · exact step_of_raised hI hr (hA.trans (nextCell_byte_of_not_ready s (by omega) hslot (hbyte hb) hpin))

/-- Settles O28: part A is the gap write, which the pin lets take effect or not. -/
theorem gapWriteForcesLow : Obligations.GapWriteForcesLow := by
  unfold Obligations.GapWriteForcesLow
  intro s hI hr ht hp hc hbit hbyte
  have hA := partA_of_lastCell ht hp hc ⟨hbit, hbyte⟩
  exact ⟨fun hpin => case_of_go s _ hI hr (hA.trans (gapWrite_of_ready s hpin)) ht (txDone_of_bit hp),
    fun hpin => step_of_raised hI hr (hA.trans (gapWrite_of_not_ready s hpin))⟩

/-- Settles O29: the gap counts while `done` is false, whatever the mode; once it is true, part B ends the one-shot. -/
theorem gapCountsThenOneshotCompletes : Obligations.GapCountsThenOneshotCompletes := by
  unfold Obligations.GapCountsThenOneshotCompletes
  intro s hI hr ht hp
  refine ⟨fun hc => ?_, fun hc hm => ?_⟩
  · have hA := (partA_of_gap s ht hp).trans (congrArg Act.go (gapTick_of_lt s hc))
    exact case_of_go s _ hI hr hA ht (txDone_of_cnt_lt hc)
  · have hd : txDone s = true := (txDone_iff s).mpr ⟨ht, hp, by omega⟩
    rw [step_of_oneshotDone hI hr hm hd, oneshotEnd_blk]
    cases s.blk.osKind <;> rfl

section Overlap

variable {s : State} {slot : Nat} {b : Block}

/-! ### Transmissions do not overlap -/

/-- Every cause of a start is an accepted command, a completion or the end of a yield, and none of them falls within a
transmission (43_frame_transmitter.md R139). -/
theorem startCause_not_sending (hI : StateOk s) (h : StartCause s slot b) : s.blk.txActive = false ∨ txDone s = true := by
  cases h
  case run ha _ | txIdle ha _ | txNext ha _ =>
    obtain ⟨_, _, hm, _⟩ := (accepted_eq_some s _).mp ha
    exact .inl (hI.stillIdle (.inl hm))
  case pattern hd _ | idleAgain hd _ _ | afterPattern hd _ => exact .inr hd
  case yieldEnd hm hp _ => exact .inl (Bool.eq_false_iff.mpr fun ht => (hI.runBusy hm).mp ht hp)

/-- Only a start writes the slot. -/
theorem tickCase_txSlot (hI : StateOk s) (ht : s.blk.txActive = true) (hd : txDone s = false) (h : TickCase s b) :
    b.txSlot = s.blk.txSlot := by
  cases h
  case start hc _ | startFails hc _ => simpa [ht, hd] using startCause_not_sending hI hc
  all_goals rfl

end Overlap

/-- Settles O49: no case of a tick within a transmission is a start, and the only other end of it is fault entry. -/
theorem transmissionsDoNotOverlap : Obligations.TransmissionsDoNotOverlap := by
  unfold Obligations.TransmissionsDoNotOverlap
  intro s t hI hr ht hd h
  have hT := stepKeepsInvariants s t hI h
  rcases step_next_cases s t hI h with ⟨hr', _⟩ | ⟨_, b, hb, rfl⟩
  · simp [hr] at hr'
  · have hhalt := hT.faultHalted
    simp only [closeTickC_blk] at hhalt ⊢
    refine ⟨tickCase_txSlot hI ht hd hb, ?_⟩
    cases ht' : b.txActive
    · have hdone := tickCase_active_cleared ht hb ht'
      simp only [hd, Bool.false_eq_true, false_or] at hdone
      exact .inr (hhalt.mp hdone)
    · exact .inl rfl

end Sys2Proof.Proofs
end

section
/-! A whole transmission (43_frame_transmitter.md R136, R137; 30_encoding.md R76): its ticks with the pin ready and no reset, what
they show on the line, and how many of them write it. -/

namespace Sys2Proof.Proofs

open Sys2Proof.Machine Sys2Proof.Laws

/-! ### How far a transmission has come -/

/-- The ticks elapsed in the transmission, counting the start tick as 1: the cells before this one, or all of them, and `cnt`. -/
def txElapsed (s : State) : Nat :=
  match s.blk.txPhase with
  | .bit => (8 * s.blk.byteIdx + s.blk.bitIdx) * s.cfg.bitUs + s.blk.cnt
  | .gap => 8 * s.cfg.frameLen * s.cfg.bitUs + s.blk.cnt

/-- The bit writes the transmission has made, its first one included. -/
def bitWritesMade (s : State) : Nat :=
  match s.blk.txPhase with
  | .bit => 8 * s.blk.byteIdx + s.blk.bitIdx + 1
  | .gap => 8 * s.cfg.frameLen

/-- The gap writes the transmission has made. -/
def gapWritesMade (s : State) : Nat :=
  match s.blk.txPhase with
  | .bit => 0
  | .gap => 1

/-- The part of the record that the ticks within a transmission leave alone: all but the line, the cell and the time. -/
def outsideCell (b : Block) : Block :=
  { b with lineQ := .low, txPhase := .bit, byteIdx := 0, bitIdx := 0, workByte := 0x00#8, cnt := 0, nowUs := 0#64 }

section Progress

variable {s : State} {n : Nat}

theorem txElapsed_of_bit (hp : s.blk.txPhase = .bit) :
    txElapsed s = (8 * s.blk.byteIdx + s.blk.bitIdx) * s.cfg.bitUs + s.blk.cnt := by
  simp [txElapsed, hp]

theorem txElapsed_of_gap (hp : s.blk.txPhase = .gap) :
    txElapsed s = 8 * s.cfg.frameLen * s.cfg.bitUs + s.blk.cnt := by
  simp [txElapsed, hp]

theorem txTicks_eq (c : Config) : txTicks c = 8 * c.frameLen * c.bitUs + 8 * c.bitUs := Nat.add_mul ..

theorem txElapsed_of_justStarted (hj : justStarted s) : txElapsed s = 1 := by
  obtain ⟨_, hp, hbyte, hbit, hcnt⟩ := hj
  simp [txElapsed_of_bit hp, hbyte, hbit, hcnt]

/-- The cells take the first `8·N·D` ticks. -/
theorem txElapsed_le_of_bit (hI : StateOk s) (ht : s.blk.txActive = true) (hp : s.blk.txPhase = .bit) :
    txElapsed s ≤ 8 * s.cfg.frameLen * s.cfg.bitUs := by
  have hbyte := hI.byteRange
  have hbit := hI.bitRange
  obtain ⟨_, hcnt⟩ := hI.bitCnt ht hp
  calc txElapsed s = (8 * s.blk.byteIdx + s.blk.bitIdx) * s.cfg.bitUs + s.blk.cnt := txElapsed_of_bit hp
    _ ≤ (8 * s.blk.byteIdx + s.blk.bitIdx) * s.cfg.bitUs + s.cfg.bitUs := Nat.add_le_add_left hcnt _
    _ = (8 * s.blk.byteIdx + s.blk.bitIdx + 1) * s.cfg.bitUs := (Nat.succ_mul ..).symm
    _ ≤ 8 * s.cfg.frameLen * s.cfg.bitUs := Nat.mul_le_mul_right _ (by omega)

/-- The gap takes the ticks after them. -/
theorem lt_txElapsed_of_gap (hI : StateOk s) (ht : s.blk.txActive = true) (hp : s.blk.txPhase = .gap) :
    8 * s.cfg.frameLen * s.cfg.bitUs < txElapsed s := by
  obtain ⟨hcnt, _⟩ := hI.gapCnt ht hp
  rw [txElapsed_of_gap hp]
  omega

/-- The next tick completes the transmission exactly when all its `L` ticks have elapsed (43_frame_transmitter.md R135, R136). -/
theorem txDone_iff_txElapsed (hI : StateOk s) (ht : s.blk.txActive = true) :
    txDone s = true ↔ txElapsed s = txTicks s.cfg := by
  obtain ⟨_, _, hD, _⟩ := hI.cfgWf
  cases hp : s.blk.txPhase
  · have hle := txElapsed_le_of_bit hI ht hp
    have hL := txTicks_eq s.cfg
    simp only [txDone_of_bit hp, Bool.false_eq_true, false_iff]
    omega
  · obtain ⟨_, hcnt⟩ := hI.gapCnt ht hp
    have hG : gapTicks s.cfg = 8 * s.cfg.bitUs := rfl
    rw [txDone_iff, txElapsed_of_gap hp, txTicks_eq]
    simp only [ht, hp, true_and]
    omega

/-- In a bit cell the elapsed ticks give the cell and the tick within it (43_frame_transmitter.md R136). -/
theorem cell_of_txElapsed (hI : StateOk s) (ht : s.blk.txActive = true) (hp : s.blk.txPhase = .bit)
    (hn : txElapsed s = n + 1) :
    8 * s.blk.byteIdx + s.blk.bitIdx = n / s.cfg.bitUs ∧ s.blk.cnt = n % s.cfg.bitUs + 1 := by
  obtain ⟨hpos, hcnt⟩ := hI.bitCnt ht hp
  rw [txElapsed_of_bit hp, Nat.mul_comm] at hn
  obtain ⟨hdiv, hmod⟩ := (Nat.div_mod_unique (a := n) (c := s.blk.cnt - 1) (d := 8 * s.blk.byteIdx + s.blk.bitIdx)
    (show 0 < s.cfg.bitUs by omega)).mpr (by omega)
  omega

end Progress

/-! ### A tick within a transmission -/

/-- `t` is `n` ticks after `s`, within the transmission in progress in `s`. -/
structure SentFor (n : Nat) (s t : State) : Prop where
  run : steps n s = .next t
  ok : StateOk t
  agrees : EncoderAgrees s → EncoderAgrees t
  cfg : t.cfg = s.cfg
  kept : outsideCell t.blk = outsideCell s.blk
  elapsed : txElapsed t = txElapsed s + n
  bitWrites : bitWritesMade t = bitWritesMade s + countTicks writesBit n s
  gapWrites : gapWritesMade t = gapWritesMade s + countTicks writesGap n s

theorem countTicks_succ_of_next {p : State → Bool} {n : Nat} {s u : State} (h : step s = .next u) :
    countTicks p (n + 1) s = (if p s then 1 else 0) + countTicks p n u := by
  simp [countTicks, h]

theorem steps_one (s : State) : steps 1 s = step s := by
  rw [steps_succ]
  cases step s <;> rfl

section Ticks

variable {s u : State} {b : Block}

/-- What is left to show of a tick that takes the record to `b`. -/
theorem sentFor_one (hI : StateOk s) (hs : step s = .next (closeTickC { s with blk := b }))
    (hkept : outsideCell b = outsideCell s.blk)
    (helapsed : txElapsed { s with blk := b } = txElapsed s + 1)
    (hbit : bitWritesMade { s with blk := b } = bitWritesMade s + if writesBit s then 1 else 0)
    (hgap : gapWritesMade { s with blk := b } = gapWritesMade s + if writesGap s then 1 else 0) :
    SentFor 1 s (closeTickC { s with blk := b }) where
  run := (steps_one s).trans hs
  ok := stepKeepsInvariants s _ hI hs
  agrees hE := stepKeepsEncoderAgreement s _ hI hE hs
  cfg := closeTickC_cfg _
  kept := by rw [closeTickC_blk]; exact hkept
  elapsed := by rw [← helapsed]; simp [txElapsed]
  bitWrites := by rw [countTicks_succ_of_next hs, countTicks, Nat.add_zero, ← hbit]; simp [bitWritesMade]
  gapWrites := by rw [countTicks_succ_of_next hs, countTicks, Nat.add_zero, ← hgap]; simp [gapWritesMade]

theorem SentFor.step (h : SentFor 1 s u) : step s = .next u := (steps_one s).symm.trans h.run

theorem SentFor.active {n : Nat} {t : State} (h : SentFor n s t) : t.blk.txActive = s.blk.txActive :=
  (congrArg Block.txActive h.kept :)

theorem SentFor.txSlot {n : Nat} {t : State} (h : SentFor n s t) : t.blk.txSlot = s.blk.txSlot :=
  (congrArg Block.txSlot h.kept :)

/-- Within a transmission only part A writes the line: no command is accepted, and the scheduler waits. -/
theorem writesLine_of_sending (hI : StateOk s) (ht : s.blk.txActive = true) (hd : txDone s = false) :
    writesLine s = (s.blk.txPhase = .bit && !decide (s.blk.cnt < s.cfg.bitUs)) := by
  have ha : accepted s = none := (accepted_eq_none s).mpr fun ⟨_, _, hm⟩ => by
    simp [hI.stillIdle (.inl hm)] at ht
  have hy : s.blk.mode = .run → s.blk.runPhase ≠ .yielding := fun hm => (hI.runBusy hm).mp ht
  cases hm : s.blk.mode
  case run => cases hph : s.blk.runPhase <;> simp_all [writesLine]
  all_goals simp [writesLine, ht, ha, hm]

theorem writesGap_of_active (ht : s.blk.txActive = true) :
    writesGap s = (s.blk.txPhase = .bit && !decide (s.blk.cnt < s.cfg.bitUs) && lastCell s) := by
  simp [writesGap, ht]

/-- A tick that only counts writes nothing (43_frame_transmitter.md R132, R135). -/
theorem sentFor_counts (hI : StateOk s) (ht : s.blk.txActive = true) (hd : txDone s = false)
    (hc : s.blk.txPhase = .bit → s.blk.cnt < s.cfg.bitUs)
    (hs : step s = .next (closeTickC { s with blk := { s.blk with cnt := s.blk.cnt + 1 } })) :
    ∃ t, SentFor 1 s t := by
  have hw : (decide (s.blk.txPhase = .bit) && !decide (s.blk.cnt < s.cfg.bitUs)) = false := by simpa using hc
  refine ⟨_, sentFor_one hI hs rfl ?_ ?_ ?_⟩
  · unfold txElapsed
    cases s.blk.txPhase <;> rfl
  · simp [bitWritesMade, writesBit, writesLine_of_sending hI ht hd, hw]
  · simp [gapWritesMade, writesGap_of_active ht, hw]

/-- The tick of a bit write ends one cell and starts the next (43_frame_transmitter.md R133). -/
theorem sentFor_nextCell {i j : Nat} {l : Level} {w : Byte} (hI : StateOk s) (ht : s.blk.txActive = true)
    (hp : s.blk.txPhase = .bit) (hc : s.blk.cnt = s.cfg.bitUs)
    (hl : ¬(s.blk.bitIdx = 7 ∧ s.blk.byteIdx = s.cfg.frameLen - 1))
    (hij : 8 * i + j = 8 * s.blk.byteIdx + s.blk.bitIdx + 1)
    (hs : step s = .next (closeTickC { s with blk := { s.blk with
      byteIdx := i, bitIdx := j, lineQ := l, workByte := w, cnt := 1 } })) :
    ∃ t, SentFor 1 s t := by
  rw [← lastCell_iff, Bool.not_eq_true] at hl
  have hg : writesGap s = false := by simp [writesGap, hl]
  refine ⟨_, sentFor_one hI hs rfl ?_ ?_ ?_⟩
  · rw [txElapsed_of_bit hp, txElapsed_of_bit (by exact hp)]
    simp only [hij, Nat.succ_mul (8 * s.blk.byteIdx + s.blk.bitIdx), hc]
  · simp [bitWritesMade, hp, hij, writesBit, writesLine_of_cellElapsed ht hp hc, hg]
  · simp [gapWritesMade, hg]

/-- The tick of the gap write ends the last cell (43_frame_transmitter.md R134). -/
theorem sentFor_gapWrite (hI : StateOk s) (ht : s.blk.txActive = true)
    (hp : s.blk.txPhase = .bit) (hc : s.blk.cnt = s.cfg.bitUs)
    (hl : s.blk.bitIdx = 7 ∧ s.blk.byteIdx = s.cfg.frameLen - 1)
    (hs : step s = .next (closeTickC { s with blk := { s.blk with txPhase := .gap, lineQ := .low, cnt := 1 } })) :
    ∃ t, SentFor 1 s t := by
  have hbyte := hI.byteRange
  have hcells : 8 * s.cfg.frameLen = 8 * s.blk.byteIdx + s.blk.bitIdx + 1 := by omega
  have hg : writesGap s = true := by simp [writesGap, ht, hp, hc, (lastCell_iff s).mpr hl]
  refine ⟨_, sentFor_one hI hs rfl ?_ ?_ ?_⟩
  · rw [txElapsed_of_bit hp, txElapsed_of_gap rfl]
    simp only [hcells, Nat.succ_mul (8 * s.blk.byteIdx + s.blk.bitIdx), hc]
  · simp [bitWritesMade, hp, hcells, writesBit, hg]
  · simp [gapWritesMade, hp, hg]

/-- A tick within a transmission, with the pin ready and no reset, in one of the ways of R132-R135. -/
theorem exists_sentFor_one (hI : StateOk s) (ht : s.blk.txActive = true) (hd : txDone s = false)
    (hr : s.ports.rst = false) (hpin : s.ports.pinReady = true) : ∃ t, SentFor 1 s t := by
  cases hp : s.blk.txPhase
  · have hbit := hI.bitRange
    obtain ⟨_, hcnt⟩ := hI.bitCnt ht hp
    rcases Nat.lt_or_eq_of_le hcnt with hc | hc
    · exact sentFor_counts hI ht hd (fun _ => hc) (insideBitCellCounts.1 s hI hr ht hp hc)
    by_cases hl : s.blk.bitIdx = 7 ∧ s.blk.byteIdx = s.cfg.frameLen - 1
    · exact sentFor_gapWrite hI ht hp hc hl ((gapWriteForcesLow s hI hr ht hp hc hl.1 hl.2).1 hpin)
    · obtain ⟨hnextBit, _, hnextByte, _⟩ := nextCellStarts s hI hr ht hp hc hl
      rcases Nat.lt_or_eq_of_le (Nat.le_of_lt_succ hbit) with hb | hb
      · exact sentFor_nextCell hI ht hp hc hl rfl (hnextBit hb hpin)
      · exact sentFor_nextCell hI ht hp hc hl (by omega) (hnextByte hb hpin)
  · have hc : s.blk.cnt < 8 * s.cfg.bitUs := by
      refine Decidable.byContradiction fun hc => ?_
      simp [(txDone_iff s).mpr ⟨ht, hp, hc⟩] at hd
    exact sentFor_counts hI ht hd (by simp [hp]) ((gapCountsThenOneshotCompletes s hI hr ht hp).1 hc)

end Ticks

/-! ### The ticks of a transmission -/

section Run

variable {s t u : State} {n : Nat}

theorem sentFor_zero (hI : StateOk s) : SentFor 0 s s := ⟨rfl, hI, id, rfl, rfl, rfl, rfl, rfl⟩

theorem SentFor.cons (h : SentFor 1 s u) (k : SentFor n u t) : SentFor (n + 1) s t := by
  have hs := h.step
  have hbit := h.bitWrites
  have hgap := h.gapWrites
  rw [countTicks_succ_of_next hs] at hbit hgap
  exact {
    run := (steps_succ_of_next n s u hs).trans k.run
    ok := k.ok
    agrees := k.agrees ∘ h.agrees
    cfg := k.cfg.trans h.cfg
    kept := k.kept.trans h.kept
    elapsed := by rw [k.elapsed, h.elapsed, Nat.add_assoc, Nat.add_comm 1 n]
    bitWrites := by rw [k.bitWrites, hbit, countTicks_succ_of_next hs, Nat.add_assoc]; rfl
    gapWrites := by rw [k.gapWrites, hgap, countTicks_succ_of_next hs, Nat.add_assoc]; rfl }

theorem pinHeld_of_succ (hH : pinHeld s (n + 1)) (h : step s = .next u) : pinHeld u n := fun k hk => by
  rw [inputsAt_step s u h]
  exact hH (k + 1) (Nat.succ_lt_succ hk)

/-- With the pin ready and no reset a transmission goes on until its `L` ticks have elapsed (43_frame_transmitter.md R136). -/
theorem exists_sentFor (hI : StateOk s) (ht : s.blk.txActive = true) (hn : txElapsed s + n ≤ txTicks s.cfg)
    (hH : pinHeld s n) : ∃ t, SentFor n s t := by
  induction n generalizing s with
  | zero => exact ⟨s, sentFor_zero hI⟩
  | succ n ih =>
    have hd : txDone s = false := by
      rw [Bool.eq_false_iff, ne_eq, txDone_iff_txElapsed hI ht]
      omega
    obtain ⟨hr, hpin⟩ := hH 0 n.succ_pos
    obtain ⟨u, hu⟩ := exists_sentFor_one hI ht hd hr hpin
    have helapsed := hu.elapsed
    obtain ⟨t, h⟩ := ih hu.ok (hu.active.trans ht) (by rw [hu.cfg]; omega) (pinHeld_of_succ hH hu.step)
    exact ⟨t, hu.cons h⟩

end Run

/-! ### What the ticks of a transmission show -/

section Waveform

variable {s : State} {n : Nat}

theorem length_frameOf (c : Config) (slot : Nat) : (frameOf c slot).length = c.frameLen := by simp [frameOf]

/-- The level of a cell (30_encoding.md R74, R75). -/
theorem waveform_of_cell {c : Config} (slot : Nat) (hn : n / c.bitUs < 8 * c.frameLen) :
    waveform c (frameOf c slot) n =
      if ((frameOf c slot).getD (n / c.bitUs / 8) 0#8).getLsbD (7 - n / c.bitUs % 8) then .high else .low := by
  rw [waveform, List.getD_eq_getElem?_getD, getElem?_levels _ (by rwa [length_frameOf]), Option.getD_some]

/-- The gap is LOW (30_encoding.md R76). -/
theorem waveform_of_gap {c : Config} (slot : Nat) (hn : 8 * c.frameLen ≤ n / c.bitUs) :
    waveform c (frameOf c slot) n = .low := by
  rw [waveform, List.getD_eq_getElem?_getD, List.getElem?_eq_none (by rwa [levels_length, length_frameOf]),
    Option.getD_none]

theorem lineQ_eq_waveform_of_bit (hI : StateOk s) (hE : EncoderAgrees s) (ht : s.blk.txActive = true)
    (hp : s.blk.txPhase = .bit) (hn : txElapsed s = n + 1) :
    s.blk.lineQ = waveform s.cfg (frameOf s.cfg s.blk.txSlot) n := by
  obtain ⟨hcell, _⟩ := cell_of_txElapsed hI ht hp hn
  rw [waveform, List.getD_eq_getElem?_getD, ← hcell, hE.lineShows ht hp, Option.getD_some]

theorem lineQ_eq_waveform_of_gap (hI : StateOk s) (ht : s.blk.txActive = true)
    (hp : s.blk.txPhase = .gap) (hn : txElapsed s = n + 1) :
    s.blk.lineQ = waveform s.cfg (frameOf s.cfg s.blk.txSlot) n := by
  obtain ⟨_, _, hD, _⟩ := hI.cfgWf
  have hlt := lt_txElapsed_of_gap hI ht hp
  rw [hI.lineLow (.inr hp), waveform_of_gap _ ((Nat.le_div_iff_mul_le hD).mpr (by omega))]

end Waveform

/-- Settles O30: the elapsed ticks say which cell or gap tick the state `n` ticks later is in, and the encoder agreement what its
line shows. -/
theorem transmissionWaveform : Obligations.TransmissionWaveform := by
  unfold Obligations.TransmissionWaveform
  intro s n hI hE hj hn hH
  have h1 := txElapsed_of_justStarted hj
  obtain ⟨hsend, _⟩ := hj
  obtain ⟨t, h⟩ := exists_sentFor hI hsend (by omega) hH
  have hT := h.ok
  have ht := h.active.trans hsend
  have hel : txElapsed t = n + 1 := by rw [h.elapsed, h1, Nat.add_comm]
  refine ⟨t, h.run, h.cfg, ht, h.txSlot, ?_⟩
  rw [← h.cfg, ← h.txSlot, txDone_iff_txElapsed hT ht, hel]
  cases hp : t.blk.txPhase
  · have hle := txElapsed_le_of_bit hT ht hp
    obtain ⟨hcell, hcnt⟩ := cell_of_txElapsed hT ht hp hel
    have hline := lineQ_eq_waveform_of_bit hT (h.agrees hE) ht hp hel
    have hbyte := hT.byteRange
    have hbit := hT.bitRange
    exact ⟨hline, fun _ => ⟨rfl, hcell, hcnt, hline.trans (waveform_of_cell _ (by omega))⟩, by omega, Iff.rfl⟩
  · have hlt := lt_txElapsed_of_gap hT ht hp
    have hcnt := (txElapsed_of_gap hp).symm.trans hel
    exact ⟨lineQ_eq_waveform_of_gap hT ht hp hel, by omega,
      fun _ => ⟨rfl, by omega, hT.lineLow (.inr hp)⟩, Iff.rfl⟩

/-- Settles O31: the writes made grow by the ticks that make them, from one bit write to the `8·N` and the gap write of the state
whose next tick completes. -/
theorem transmissionWriteCount : Obligations.TransmissionWriteCount := by
  unfold Obligations.TransmissionWriteCount
  intro s hI hj hH
  have h1 := txElapsed_of_justStarted hj
  obtain ⟨hsend, hp, hbyte, hbit, _⟩ := hj
  obtain ⟨_, _, hD, _⟩ := hI.cfgWf
  have hL := txTicks_eq s.cfg
  obtain ⟨t, h⟩ := exists_sentFor hI hsend (by omega) hH
  have hdone : txDone t = true := by
    rw [txDone_iff_txElapsed h.ok (h.active.trans hsend), h.elapsed, h.cfg]
    omega
  obtain ⟨_, hgap, _⟩ := (txDone_iff t).mp hdone
  have hbits := h.bitWrites
  have hgaps := h.gapWrites
  simp only [bitWritesMade, gapWritesMade, hp, hgap, hbyte, hbit, h.cfg] at hbits hgaps
  omega

end Sys2Proof.Proofs
end

section
/-! The rotation (44_pattern_library.md R151, R152, R154): which ticks write `rot_idx`, and the slots that the pattern
transmissions of a run without reset send. -/

namespace Sys2Proof.Proofs

open Sys2Proof.Machine Sys2Proof.Laws

section Rotation

variable {s : State} {slot : Nat} {b : Block}

/-! ### The ticks that complete a pattern transmission -/

theorem completesPattern_iff (s : State) : completesPattern s = true ↔ s.ports.rst = false ∧ txDone s = true ∧
    ((s.blk.mode = .oneshot ∧ s.blk.osKind = .pattern) ∨ (s.blk.mode = .run ∧ s.blk.runPhase = .patternTx)) := by
  simp [completesPattern, and_assoc]

theorem completesPattern_of_not_done (hd : txDone s = false) : completesPattern s = false := by simp [completesPattern, hd]

theorem completesPattern_of_bit (hp : s.blk.txPhase = .bit) : completesPattern s = false :=
  completesPattern_of_not_done (txDone_of_bit hp)

theorem completesPattern_of_not_sending (hm : s.blk.mode = .ready ∨ s.blk.mode = .halted) :
    completesPattern s = false := by
  rcases hm with hm | hm <;> simp [completesPattern, hm]

theorem completesPattern_of_accepted {w : Byte} (ha : accepted s = some w) : completesPattern s = false := by
  obtain ⟨_, _, hm, _⟩ := (accepted_eq_some s w).mp ha
  exact completesPattern_of_not_sending (.inl hm)

theorem completesPattern_of_other_phase (hm : s.blk.mode = .run) (hp : s.blk.runPhase ≠ .patternTx) :
    completesPattern s = false := by
  simp [completesPattern, hm, hp]

/-! ### What a tick does to the index -/

/-- The index after a tick that is no reset, by R152. -/
def rotIdxAfter (s : State) : Nat :=
  if completesPattern s then (s.blk.rotIdx + 1) % s.cfg.numPatterns else s.blk.rotIdx

theorem rotIdxAfter_of_completes (h : completesPattern s = true) :
    rotIdxAfter s = (s.blk.rotIdx + 1) % s.cfg.numPatterns := by
  simp [rotIdxAfter, h]

theorem rotIdxAfter_of_not_completes (h : completesPattern s = false) : rotIdxAfter s = s.blk.rotIdx := by
  simp [rotIdxAfter, h]

/-- The index counts the completion, if there is one, modulo `P`. -/
theorem rotIdxAfter_eq_mod (hI : StateOk s) :
    rotIdxAfter s = (s.blk.rotIdx + if completesPattern s then 1 else 0) % s.cfg.numPatterns := by
  cases h : completesPattern s
  · simp [rotIdxAfter_of_not_completes h, Nat.mod_eq_of_lt hI.rotRange]
  · simp [rotIdxAfter_of_completes h]

/-- Of the causes of a start only the end of a pattern send, with `Y = 0`, moves the index. -/
theorem startCause_rotIdx (hr : s.ports.rst = false) (h : StartCause s slot b) : b.rotIdx = rotIdxAfter s := by
  cases h with
  | run _ ha | txIdle _ ha | txNext _ ha =>
    exact (rotIdxAfter_of_not_completes (completesPattern_of_accepted ha)).symm
  | pattern hm hp | idleAgain hm hp | yieldEnd hm hp =>
    exact (rotIdxAfter_of_not_completes (completesPattern_of_other_phase hm (by simp [hp]))).symm
  | afterPattern hm hp hd =>
    exact (rotIdxAfter_of_completes ((completesPattern_iff s).mpr ⟨hr, hd, .inr ⟨hm, hp⟩⟩)).symm

theorem tickCase_rotIdx (hr : s.ports.rst = false) (h : TickCase s b) : b.rotIdx = rotIdxAfter s := by
  cases h with
  | still hm => exact (rotIdxAfter_of_not_completes (completesPattern_of_not_sending (hm.imp_left And.left))).symm
  | nop _ ha | illegal _ ha => exact (rotIdxAfter_of_not_completes (completesPattern_of_accepted ha)).symm
  | start _ _ hc | startFails _ _ hc => exact (startCause_rotIdx hr hc :)
  | inside _ hp | nextBit _ hp | nextBitFails _ hp | nextByte _ hp | nextByteFails _ hp | gapWrite _ hp
  | gapWriteFails _ hp => exact (rotIdxAfter_of_not_completes (completesPattern_of_bit hp)).symm
  | gapCount _ _ hc => exact (rotIdxAfter_of_not_completes (completesPattern_of_not_done (txDone_of_cnt_lt hc))).symm
  | oneshotDone hm hd =>
    cases hk : s.blk.osKind with
    | idle => exact (rotIdxAfter_of_not_completes (by simp [completesPattern, hm, hk])).symm
    | pattern => exact (rotIdxAfter_of_completes ((completesPattern_iff s).mpr ⟨hr, hd, .inl ⟨hm, hk⟩⟩)).symm
  | idleThenYield hm hp | yieldCount hm hp =>
    exact (rotIdxAfter_of_not_completes (completesPattern_of_other_phase hm (by simp [hp]))).symm
  | patternThenYield hm hp hd =>
    exact (rotIdxAfter_of_completes ((completesPattern_iff s).mpr ⟨hr, hd, .inr ⟨hm, hp⟩⟩)).symm

theorem step_next_rotIdx {t : State} (hI : StateOk s) (hr : s.ports.rst = false) (h : step s = .next t) :
    t.blk.rotIdx = rotIdxAfter s := by
  rcases step_next_cases s t hI h with ⟨hr', _⟩ | ⟨_, b, hb, rfl⟩
  · simp [hr] at hr'
  · simpa using tickCase_rotIdx hr hb

theorem step_next_rotIdx_of_reset {t : State} (hI : StateOk s) (hr : s.ports.rst = true) (h : step s = .next t) :
    t.blk.rotIdx = 0 := by
  rw [step_of_reset s hI.cfgWf hr] at h
  cases h
  simp [Block.reset]

end Rotation

/-- Settles O40: RESET has the index 0, and each case of another tick moves the index if it completes a pattern transmission and
keeps it if not. -/
theorem rotationAdvancesOnCompletion : Obligations.RotationAdvancesOnCompletion := by
  unfold Obligations.RotationAdvancesOnCompletion
  intro s t hI h
  refine ⟨fun hr => step_next_rotIdx_of_reset hI hr h, fun hr => ?_⟩
  rw [step_next_rotIdx hI hr h, rotIdxAfter]
  simp only [completesPattern_iff, hr, true_and]

/-! ### Runs without reset -/

/-- A run keeps the invariants and the slot agreement. -/
theorem steps_next_slotAgrees {n : Nat} {s t : State} (hI : StateOk s) (hS : SlotAgrees s) (h : steps n s = .next t) :
    StateOk t ∧ SlotAgrees t := by
  induction n generalizing s with
  | zero => cases h; exact ⟨hI, hS⟩
  | succ n ih =>
    obtain ⟨u, hu, ht⟩ := steps_succ_eq_next_iff.mp h
    exact ih (stepKeepsInvariants s u hI hu) (stepKeepsSlotAgreement s u hI hS hu) ht

/-- The index advances, modulo `P`, by the number of pattern transmissions completed. -/
theorem steps_next_rotIdx {n : Nat} {s t : State} (hI : StateOk s) (hr : noReset s n) (h : steps n s = .next t) :
    t.blk.rotIdx = (s.blk.rotIdx + countTicks completesPattern n s) % s.cfg.numPatterns := by
  induction n generalizing s with
  | zero => cases h; exact (Nat.mod_eq_of_lt hI.rotRange).symm
  | succ n ih =>
    obtain ⟨u, hu, ht⟩ := steps_succ_eq_next_iff.mp h
    obtain ⟨hrst, hru⟩ := noReset_succ hr hu
    rw [ih (stepKeepsInvariants s u hI hu) hru ht, step_next_cfg hu, step_next_rotIdx hI hrst hu, rotIdxAfter_eq_mod hI,
      countTicks_succ_of_next hu, Nat.mod_add_mod, Nat.add_assoc]

/-- A pattern transmission that completes has sent the pattern the index names (R151). -/
theorem txSlot_of_completesPattern {s : State} (hS : SlotAgrees s) (h : completesPattern s = true) :
    s.blk.txSlot = 1 + s.blk.rotIdx := by
  obtain ⟨_, _, ⟨hm, hk⟩ | ⟨hm, hp⟩⟩ := (completesPattern_iff s).mp h
  · exact hS.oneshotPattern hm hk
  · exact hS.runPattern hm hp

/-- Settles O41: by induction on the ticks the index has advanced by the completions, and the slot agreement, kept by the run, says
which slot the next completion has sent. -/
theorem patternsGoRoundRobin : Obligations.PatternsGoRoundRobin := by
  unfold Obligations.PatternsGoRoundRobin
  intro n s t hI hS hr h
  have hrot := steps_next_rotIdx hI hr h
  obtain ⟨_, hST⟩ := steps_next_slotAgrees hI hS h
  exact ⟨hrot, fun hc => hrot ▸ txSlot_of_completesPattern hST hc⟩

end Sys2Proof.Proofs
end

section
/-! The scheduler, one tick at a time (45_scheduler.md R162-R167): the rotation check, the end of the pattern send, the yield, and
what these alone write. -/

namespace Sys2Proof.Proofs

open Sys2Proof.Machine Sys2Proof.Laws

/-! ### What a tick of the scheduler makes of its part B -/

section Tick

variable {s : State}

/-- A tick that completes a transmission hands part B the record with the transmission ended (43_frame_transmitter.md R135). -/
theorem step_of_txDone (hI : StateOk s) (hr : s.ports.rst = false) (hd : txDone s = true) :
    step s = closeOutcome (partB s { s with blk := { s.blk with txActive := false } }) := by
  obtain ⟨ht, hg, _⟩ := (txDone_iff s).mp hd
  rw [step_eq_tick s hI, tick_of_go s _ hr (partA_of_gap s ht hg), gapTick_of_done s hd]

theorem rotationDue_iff (s : State) :
    rotationDue s = true ↔ s.cfg.rotMs < (nowMs s.blk - s.blk.lastPatternMs).toNat := decide_eq_true_iff

theorem step_of_idleDone_due (hI : StateOk s) (hr : s.ports.rst = false) (hm : s.blk.mode = .run)
    (hp : s.blk.runPhase = .idleTx) (hd : txDone s = true) (hdue : rotationDue s = true) :
    step s = closeOutcome (txStart (1 + s.blk.rotIdx) { s with blk := { s.blk with
      txActive := false, lastPatternMs := nowMs s.blk, runPhase := .patternTx } }).outcome := by
  rw [step_of_txDone hI hr hd, partB_of_idleDone s _ hm hp hd, rotationCheck_of_due _ (by exact hdue)]
  rfl

theorem step_of_idleDone_notDue (hI : StateOk s) (hr : s.ports.rst = false) (hm : s.blk.mode = .run)
    (hp : s.blk.runPhase = .idleTx) (hd : txDone s = true) (hdue : rotationDue s = false) :
    step s = closeOutcome (startYield { s with blk := { s.blk with txActive := false } }).outcome := by
  rw [step_of_txDone hI hr hd, partB_of_idleDone s _ hm hp hd, rotationCheck_of_not_due _ (by exact hdue)]

theorem step_of_patternDone (hI : StateOk s) (hr : s.ports.rst = false) (hm : s.blk.mode = .run)
    (hp : s.blk.runPhase = .patternTx) (hd : txDone s = true) :
    step s = closeOutcome (startYield { s with blk := { s.blk with
      txActive := false, rotIdx := (s.blk.rotIdx + 1) % s.cfg.numPatterns } }).outcome := by
  rw [step_of_txDone hI hr hd, partB_of_patternDone s _ hm hp hd]
  rfl

theorem not_active_of_yielding (hI : StateOk s) (hm : s.blk.mode = .run) (hp : s.blk.runPhase = .yielding) :
    s.blk.txActive = false :=
  Bool.eq_false_iff.mpr fun ht => (hI.runBusy hm).mp ht hp

theorem step_of_yielding (hI : StateOk s) (hr : s.ports.rst = false) (hm : s.blk.mode = .run)
    (hp : s.blk.runPhase = .yielding) : step s = closeOutcome (yieldTick s).outcome := by
  rw [step_eq_tick s hI, tick_of_go s _ hr (partA_of_still s (not_active_of_yielding hI hm hp))]
  simp [partB, hm, hp, runTick]

/-! ### The starts of the yield and of the idle send, with part C -/

theorem close_startYield_of_pos (s : State) (hy : s.cfg.yieldUs ≠ 0) :
    closeOutcome (startYield s).outcome =
      .next (closeTickC { s with blk := { s.blk with runPhase := .yielding, yieldCnt := 1 } }) := by
  rw [startYield_of_pos s hy]
  rfl

theorem close_startIdle_of_ready (s : State) (hc : s.cfg.wf) (hpin : s.ports.pinReady = true) :
    closeOutcome (startIdle s).outcome =
      .next (closeTickC { s with blk := startedBlock s.cfg 0 { s.blk with runPhase := .idleTx } }) :=
  close_txStart_of_ready 0 _ hc.1 (Nat.zero_le _) hpin

theorem close_startIdle_of_not_ready (s : State) (hc : s.cfg.wf) (hpin : s.ports.pinReady = false) :
    closeOutcome (startIdle s).outcome =
      .next (closeTickC { s with blk := failedStartBlock s.cfg 0 { s.blk with runPhase := .idleTx } }) :=
  close_txStart_of_not_ready 0 _ hc.1 (Nat.zero_le _) hpin

end Tick

/-- Settles O33: part B is the check, which by the strict test is the start of the pattern send or `StartYield`. -/
theorem rotationCheckDecides : Obligations.RotationCheckDecides := by
  unfold Obligations.RotationCheckDecides
  intro s hI hr hm hp hd m due
  have hN := hI.cfgWf.1
  have hslot : 1 + s.blk.rotIdx ≤ s.cfg.numPatterns := by have := hI.rotRange; omega
  have hidle : { s.blk with runPhase := .idleTx } = s.blk := by rw [← hp]
  have hdue_iff : rotationDue s = true ↔ due := rotationDue_iff s
  refine ⟨fun h hpin => ?_, fun h hpin => ?_, fun h hy => ?_, fun h hy hpin => ?_, fun h hy hpin => ?_⟩ <;>
    rw [← hdue_iff] at h
  · rw [step_of_idleDone_due hI hr hm hp hd h]
    exact close_txStart_of_ready _ _ hN hslot hpin
  · rw [step_of_idleDone_due hI hr hm hp hd h]
    exact close_txStart_of_not_ready _ _ hN hslot hpin
  · rw [step_of_idleDone_notDue hI hr hm hp hd (Bool.eq_false_iff.mpr h)]
    exact close_startYield_of_pos _ hy
  · rw [step_of_idleDone_notDue hI hr hm hp hd (Bool.eq_false_iff.mpr h), startYield_of_zero _ (by exact hy), ← hidle]
    exact close_startIdle_of_ready _ hI.cfgWf hpin
  · rw [step_of_idleDone_notDue hI hr hm hp hd (Bool.eq_false_iff.mpr h), startYield_of_zero _ (by exact hy), ← hidle]
    exact close_startIdle_of_not_ready _ hI.cfgWf hpin

/-- Settles O35: part A does nothing, and part B counts the yield's tick or starts the idle send. -/
theorem yieldCountsThenIdle : Obligations.YieldCountsThenIdle := by
  unfold Obligations.YieldCountsThenIdle
  intro s hI hr hm hp
  obtain ⟨hone, hle⟩ := hI.yieldCnt hm hp
  have hstep := step_of_yielding hI hr hm hp
  refine ⟨not_active_of_yielding hI hm hp, by omega, fun hy => ?_, fun hy hpin => ?_, fun hy hpin => ?_⟩
  · rw [hstep, yieldTick, if_pos hy]
    rfl
  · rw [hstep, yieldTick, if_neg (by omega)]
    exact close_startIdle_of_ready s hI.cfgWf hpin
  · rw [hstep, yieldTick, if_neg (by omega)]
    exact close_startIdle_of_not_ready s hI.cfgWf hpin

/-! ### The fields the scheduler alone writes -/

section Fields

variable {s : State} {slot : Nat} {b : Block}

/-- The rotation check in this tick starts a pattern (45_scheduler.md R162). -/
abbrev startsPattern (s : State) : Prop :=
  s.blk.mode = .run ∧ s.blk.runPhase = .idleTx ∧ txDone s ∧ rotationDue s

theorem startCause_lastPatternMs (hn : ¬ startsPattern s) (h : StartCause s slot b) :
    b.lastPatternMs = s.blk.lastPatternMs := by
  cases h
  case pattern hm hp hd hdue => exact absurd ⟨hm, hp, hd, hdue⟩ hn
  all_goals rfl

theorem tickCase_lastPatternMs (hn : ¬ startsPattern s) (h : TickCase s b) :
    b.lastPatternMs = s.blk.lastPatternMs := by
  cases h
  case start hc _ | startFails hc _ => exact (startCause_lastPatternMs hn hc :)
  all_goals rfl

/-- A start writes no `yield_cnt`: of all cases only the yield's own ticks do. -/
theorem tickCase_yieldCnt_changed (h : TickCase s b) (hne : b.yieldCnt ≠ s.blk.yieldCnt) :
    s.blk.mode = .run ∧ (s.blk.runPhase = .yielding ∨ (txDone s = true ∧ b.runPhase = .yielding ∧ b.yieldCnt = 1)) := by
  cases h
  case idleThenYield hm _ hd _ _ | patternThenYield hm _ hd _ => exact ⟨hm, .inr ⟨hd, rfl, rfl⟩⟩
  case yieldCount hm hp _ => exact ⟨hm, .inl hp⟩
  case start hc _ | startFails hc _ => cases hc <;> exact absurd rfl hne
  all_goals exact absurd rfl hne

/-- Within a transmission `run_phase` stays: only its end and a start write it. -/
theorem tickCase_runPhase (hI : StateOk s) (ht : s.blk.txActive = true) (hd : txDone s = false) (h : TickCase s b) :
    b.runPhase = s.blk.runPhase := by
  cases h
  case start hc _ | startFails hc _ => simpa [ht, hd] using startCause_not_sending hI hc
  case idleThenYield hd' _ _ | patternThenYield hd' _ => simp [hd] at hd'
  all_goals rfl

/-- The commands start only from READY, and the starts of RUN keep its mode. -/
theorem startCause_mode_of_run (hm : s.blk.mode = .run) (h : StartCause s slot b) : b.mode = .run := by
  cases h
  case run ha _ | txIdle ha _ | txNext ha _ =>
    obtain ⟨_, _, hm', _⟩ := (accepted_eq_some s _).mp ha
    simp [hm] at hm'
  all_goals exact hm

/-- RUN is kept by every case but the failing line writes (45_scheduler.md R167). -/
theorem tickCase_mode_of_run (hm : s.blk.mode = .run) (h : TickCase s b) :
    b.mode = .run ∨ (b.mode = .halted ∧ writesLine s = true ∧ s.ports.pinReady = false) := by
  cases h
  case start hc _ => exact .inl (startCause_mode_of_run hm hc :)
  case startFails hc hpin => exact .inr ⟨rfl, startCause_writesLine hc, hpin⟩
  case nextBitFails ht hp hc _ hpin | nextByteFails ht hp hc _ _ hpin | gapWriteFails ht hp hc _ _ hpin =>
    exact .inr ⟨rfl, writesLine_of_cellElapsed ht hp hc, hpin⟩
  case oneshotDone hm' _ => simp [hm] at hm'
  all_goals exact .inl hm

end Fields

/-- Settles O34: the end of the send advances the index and runs `StartYield`; until then part B waits, and no case of a tick within
the send writes the index, the phase or `yield_cnt`. -/
theorem patternEndAdvancesAndYields : Obligations.PatternEndAdvancesAndYields := by
  unfold Obligations.PatternEndAdvancesAndYields
  intro s hI hr hm hp r
  have ht : s.blk.txActive = true := (hI.runBusy hm).mpr (by simp [hp])
  refine ⟨fun hd hy => ?_, fun hd hy hpin => ?_, fun hd hy hpin => ?_, fun hd => ⟨fun s' => partB_of_busy s s' hI ht hd, ?_⟩⟩
  · rw [step_of_patternDone hI hr hm hp hd]
    exact close_startYield_of_pos _ hy
  · rw [step_of_patternDone hI hr hm hp hd, startYield_of_zero _ (by exact hy)]
    exact close_startIdle_of_ready _ hI.cfgWf hpin
  · rw [step_of_patternDone hI hr hm hp hd, startYield_of_zero _ (by exact hy)]
    exact close_startIdle_of_not_ready _ hI.cfgWf hpin
  · intro t h
    have hrot := (step_next_rotIdx hI hr h).trans (rotIdxAfter_of_not_completes (completesPattern_of_not_done hd))
    obtain ⟨b, hb, hs⟩ := step_cases s hI hr
    cases h.symm.trans hs
    simp only [closeTickC_blk] at hrot ⊢
    refine ⟨hrot, tickCase_runPhase hI ht hd hb, Decidable.byContradiction fun hne => ?_⟩
    simpa [hp, hd] using (tickCase_yieldCnt_changed hb hne).2

/-- Settles O36: a command is accepted in READY only, and of the cases of a tick in RUN only the failing line writes leave it. -/
theorem runHasNoTerminalState : Obligations.RunHasNoTerminalState := by
  unfold Obligations.RunHasNoTerminalState
  intro s t hI hm h
  refine ⟨(accepted_eq_none s).mpr fun ⟨_, _, hm'⟩ => by simp [hm] at hm', ?_⟩
  rcases step_next_cases s t hI h with ⟨hr, _⟩ | ⟨_, b, hb, rfl⟩
  · exact .inl hr
  · exact .inr (by simpa using tickCase_mode_of_run hm hb)

/-- Only the tick of a rotation check that starts a pattern writes the timestamp, and O33 says what it writes. -/
theorem step_next_lastPatternMs {s t : State} (hI : StateOk s) (hr : s.ports.rst = false) (h : step s = .next t) :
    t.blk.lastPatternMs = if startsPattern s then nowMs s.blk else s.blk.lastPatternMs := by
  split
  · next hs =>
    obtain ⟨hm, hp, hd, hdue⟩ := hs
    obtain ⟨hstarts, hfails, _⟩ := rotationCheckDecides s hI hr hm hp hd
    cases hpin : s.ports.pinReady
    · cases h.symm.trans (hfails ((rotationDue_iff s).mp hdue) hpin)
      simp [failedStartBlock, nowMs]
    · cases h.symm.trans (hstarts ((rotationDue_iff s).mp hdue) hpin)
      simp [startedBlock, nowMs]
  · next hn =>
    obtain ⟨b, hb, hs⟩ := step_cases s hI hr
    cases h.symm.trans hs
    simpa using tickCase_lastPatternMs hn hb

/-- Settles O42: the equation for the timestamp, and `yield_cnt` changes in the yield's own ticks only. -/
theorem timestampWrittenOnlyByCheck : Obligations.TimestampWrittenOnlyByCheck := by
  unfold Obligations.TimestampWrittenOnlyByCheck
  intro s t hI hr h
  refine ⟨step_next_lastPatternMs hI hr h, ?_⟩
  obtain ⟨b, hb, hs⟩ := step_cases s hI hr
  cases h.symm.trans hs
  simpa using tickCase_yieldCnt_changed hb

end Sys2Proof.Proofs
end

section
/-! The iterations of RUN (45_scheduler.md R168, R170): how long one lasts with a pattern and without, and how far apart the
patterns are. -/

namespace Sys2Proof.Proofs

open Sys2Proof.Machine Sys2Proof.Laws

/-! ### Where an iteration stands -/

/-- The block is in RUN under `c`, in phase `p`, with the rotation index `r` and the timestamp `m`. -/
structure InRun (c : Config) (p : RunPhase) (r : Nat) (m : Time) (s : State) : Prop where
  ok : StateOk s
  cfg : s.cfg = c
  mode : s.blk.mode = .run
  phase : s.blk.runPhase = p
  rotIdx : s.blk.rotIdx = r
  lastPatternMs : s.blk.lastPatternMs = m

/-- A send of RUN has made its first bit write in the tick just ended. -/
structure SendStarted (c : Config) (p : RunPhase) (slot r : Nat) (m : Time) (s : State) : Prop extends
    InRun c p r m s where
  started : justStarted s
  slot : s.blk.txSlot = slot

/-- `StartYield()` was called in the tick just ended (45_scheduler.md R165). -/
structure YieldStarted (c : Config) (r : Nat) (m : Time) (s : State) : Prop where
  yields : c.yieldUs ≠ 0 → InRun c .yielding r m s ∧ s.blk.yieldCnt = 1
  sends : c.yieldUs = 0 → SendStarted c .idleTx 0 r m s

section Iteration

variable {c : Config} {p : RunPhase} {slot r n k : Nat} {m : Time} {s t u : State}

theorem YieldStarted.rotIdx (h : YieldStarted c r m s) : s.blk.rotIdx = r := by
  by_cases hy : c.yieldUs = 0
  · exact (h.sends hy).rotIdx
  · exact (h.yields hy).1.rotIdx

theorem sendStarted_of_justStarted (hI : StateOk s) (hj : justStarted s) (hm : s.blk.mode = .run)
    (hp : s.blk.runPhase = p) : SendStarted s.cfg p s.blk.txSlot s.blk.rotIdx s.blk.lastPatternMs s :=
  { ok := hI, cfg := rfl, mode := hm, phase := hp, rotIdx := rfl, lastPatternMs := rfl, started := hj, slot := rfl }

/-- The ticks within a transmission leave alone all that `InRun` says (43_frame_transmitter.md R136). -/
theorem InRun.sentFor (h : InRun c p r m s) (hst : SentFor n s t) : InRun c p r m t where
  ok := hst.ok
  cfg := hst.cfg.trans h.cfg
  mode := (congrArg Block.mode hst.kept :).trans h.mode
  phase := (congrArg Block.runPhase hst.kept :).trans h.phase
  rotIdx := (congrArg Block.rotIdx hst.kept :).trans h.rotIdx
  lastPatternMs := (congrArg Block.lastPatternMs hst.kept :).trans h.lastPatternMs

/-- The yield's line is LOW (43_frame_transmitter.md R140). -/
theorem InRun.inactive_low (h : InRun c .yielding r m s) : s.blk.txActive = false ∧ s.blk.lineQ = .low := by
  have ht := not_active_of_yielding h.ok h.mode h.phase
  exact ⟨ht, h.ok.lineLow (.inl ht)⟩

/-! ### Runs in pieces -/

theorem pinHeld_of_steps (hH : pinHeld s (n + k)) (h : steps n s = .next t) : pinHeld t k := by
  induction n generalizing s with
  | zero => cases h; simpa using hH
  | succ n ih =>
    obtain ⟨u, hu, ht⟩ := steps_succ_eq_next_iff.mp h
    exact ih (pinHeld_of_succ (by rwa [Nat.add_right_comm] at hH) hu) ht

theorem pinHeld_mono (hH : pinHeld s n) (hk : k ≤ n) : pinHeld s k := fun i hi => hH i (by omega)

theorem steps_succ_of_last (h : steps n s = .next t) (ht : step t = .next u) : steps (n + 1) s = .next u := by
  rw [steps_add n 1 s t h, steps_one, ht]

/-! ### A send -/

theorem one_le_txTicks (hc : c.wf) : 1 ≤ txTicks c := by
  obtain ⟨_, _, hD, _⟩ := hc
  have := txTicks_eq c
  omega

/-- For `L` ticks from its start the send goes on, and the tick after the last of them completes it. -/
theorem SendStarted.goesOn (h : SendStarted c p slot r m s) (hn : n < txTicks c) (hH : pinHeld s n) :
    ∃ t, steps n s = .next t ∧ InRun c p r m t ∧ t.blk.txActive = true ∧ t.blk.txSlot = slot ∧
      (txDone t = true ↔ n + 1 = txTicks c) := by
  have hone := txElapsed_of_justStarted h.started
  obtain ⟨ht, _⟩ := h.started
  obtain ⟨t, hst⟩ := exists_sentFor h.ok ht (by rw [h.cfg]; omega) hH
  have hR := h.toInRun.sentFor hst
  refine ⟨t, hst.run, hR, hst.active.trans ht, hst.txSlot.trans h.slot, ?_⟩
  rw [txDone_iff_txElapsed hR.ok (hst.active.trans ht), hst.elapsed, hone, hR.cfg, Nat.add_comm]

/-- The tick that completes the send, `L - 1` ticks after the state the send started in. -/
theorem SendStarted.completes (h : SendStarted c p slot r m s) (hH : pinHeld s (txTicks c)) :
    ∃ t, steps (txTicks c - 1) s = .next t ∧ InRun c p r m t ∧ txDone t = true ∧ t.ports.rst = false ∧
      t.ports.pinReady = true ∧ t.blk.nowUs = s.blk.nowUs + BitVec.ofNat 64 (txTicks c - 1) := by
  have hL := one_le_txTicks (h.cfg ▸ h.ok.cfgWf)
  have hH' := pinHeld_mono hH (Nat.sub_le _ 1)
  obtain ⟨t, hs, hR, _, _, hdone⟩ := h.goesOn (n := txTicks c - 1) (by omega) hH'
  obtain ⟨hr, hpin⟩ := pinHeld_of_steps (k := 1) (by rwa [Nat.sub_add_cancel hL]) hs 0 Nat.one_pos
  exact ⟨t, hs, hR, hdone.mpr (Nat.sub_add_cancel hL), hr, hpin, steps_next_nowUs (fun k hk => (hH' k hk).1) hs⟩

/-! ### The ticks between two sends -/

/-- What is left to show of a tick in RUN that takes the record to `b`. -/
theorem inRun_of_step {b : Block} (hI : StateOk s) (hc : s.cfg = c)
    (hs : step s = .next (closeTickC { s with blk := b })) (hm : b.mode = .run) (hp : b.runPhase = p)
    (hr : b.rotIdx = r) (hms : b.lastPatternMs = m) : InRun c p r m (closeTickC { s with blk := b }) where
  ok := stepKeepsInvariants s _ hI hs
  cfg := (closeTickC_cfg _).trans hc
  mode := by simpa
  phase := by simpa
  rotIdx := by simpa
  lastPatternMs := by simpa

theorem sendStarted_of_step {b : Block} (hI : StateOk s) (hc : s.cfg = c)
    (hs : step s = .next (closeTickC { s with blk := startedBlock s.cfg slot b })) (hm : b.mode = .run)
    (hp : b.runPhase = p) (hr : b.rotIdx = r) (hms : b.lastPatternMs = m) :
    SendStarted c p slot r m (closeTickC { s with blk := startedBlock s.cfg slot b }) where
  toInRun := inRun_of_step hI hc hs hm hp hr hms
  started := by simp [justStarted, startedBlock]
  slot := by simp [startedBlock]

theorem yieldStarted_of_yields (hy : c.yieldUs ≠ 0) (h : InRun c .yielding r m s) (hcnt : s.blk.yieldCnt = 1) :
    YieldStarted c r m s :=
  ⟨fun _ => ⟨h, hcnt⟩, fun h0 => absurd h0 hy⟩

theorem yieldStarted_of_sends (hy : c.yieldUs = 0) (h : SendStarted c .idleTx 0 r m s) : YieldStarted c r m s :=
  ⟨fun hne => absurd hy hne, fun _ => h⟩

/-- A check that fires starts the pattern send in its own tick (45_scheduler.md R162). -/
theorem InRun.checkFires (h : InRun c .idleTx r m s) (hd : txDone s = true) (hr : s.ports.rst = false)
    (hpin : s.ports.pinReady = true) (hdue : rotationDue s = true) :
    ∃ u, step s = .next u ∧ SendStarted c .patternTx (1 + r) r (nowMs s.blk) u := by
  obtain rfl := h.rotIdx
  obtain ⟨hstarts, _⟩ := rotationCheckDecides s h.ok hr h.mode h.phase hd
  have hs := hstarts ((rotationDue_iff s).mp hdue) hpin
  exact ⟨_, hs, sendStarted_of_step h.ok h.cfg hs h.mode rfl rfl rfl⟩

/-- A check that does not fire calls `StartYield()` (45_scheduler.md R162). -/
theorem InRun.checkPasses (h : InRun c .idleTx r m s) (hd : txDone s = true) (hr : s.ports.rst = false)
    (hpin : s.ports.pinReady = true) (hdue : ¬ rotationDue s = true) :
    ∃ u, step s = .next u ∧ YieldStarted c r m u := by
  obtain rfl := h.cfg
  obtain ⟨_, _, hyields, hsends, _⟩ := rotationCheckDecides s h.ok hr h.mode h.phase hd
  rw [rotationDue_iff] at hdue
  by_cases hy : s.cfg.yieldUs = 0
  · have hs := hsends hdue hy hpin
    exact ⟨_, hs, yieldStarted_of_sends hy (sendStarted_of_step h.ok rfl hs h.mode h.phase h.rotIdx h.lastPatternMs)⟩
  · have hs := hyields hdue hy
    exact ⟨_, hs, yieldStarted_of_yields hy (inRun_of_step h.ok rfl hs h.mode rfl h.rotIdx h.lastPatternMs) (by simp)⟩

/-- The end of the pattern send advances the index and calls `StartYield()` (45_scheduler.md R164). -/
theorem InRun.patternEnds (h : InRun c .patternTx r m s) (hd : txDone s = true) (hr : s.ports.rst = false)
    (hpin : s.ports.pinReady = true) :
    ∃ u, step s = .next u ∧ YieldStarted c ((r + 1) % c.numPatterns) m u := by
  obtain rfl := h.cfg
  obtain rfl := h.rotIdx
  obtain ⟨hyields, hsends, _⟩ := patternEndAdvancesAndYields s h.ok hr h.mode h.phase
  by_cases hy : s.cfg.yieldUs = 0
  · have hs := hsends hd hy hpin
    exact ⟨_, hs, yieldStarted_of_sends hy (sendStarted_of_step h.ok rfl hs h.mode rfl rfl h.lastPatternMs)⟩
  · have hs := hyields hd hy
    exact ⟨_, hs, yieldStarted_of_yields hy (inRun_of_step h.ok rfl hs h.mode rfl rfl h.lastPatternMs) (by simp)⟩

/-! ### The yield -/

theorem InRun.yieldCounts (h : InRun c .yielding r m s) (hn : s.blk.yieldCnt + n ≤ c.yieldUs) (hH : pinHeld s n) :
    ∃ t, steps n s = .next t ∧ InRun c .yielding r m t ∧ t.blk.yieldCnt = s.blk.yieldCnt + n := by
  induction n generalizing s with
  | zero => exact ⟨s, rfl, h, rfl⟩
  | succ n ih =>
    obtain ⟨hr, _⟩ := hH 0 n.succ_pos
    obtain ⟨_, _, hcounts, _⟩ := yieldCountsThenIdle s h.ok hr h.mode h.phase
    have hs := hcounts (by rw [h.cfg]; omega)
    obtain ⟨t, ht, hR, hcnt⟩ := ih (inRun_of_step h.ok h.cfg hs h.mode h.phase h.rotIdx h.lastPatternMs)
      (by simp only [closeTickC_blk]; omega) (pinHeld_of_succ hH hs)
    refine ⟨t, (steps_succ_of_next n s _ hs).trans ht, hR, ?_⟩
    rw [hcnt, closeTickC_blk, Nat.add_assoc, Nat.add_comm 1]

/-- The yield's last tick starts the idle send (45_scheduler.md R166). -/
theorem InRun.yieldEnds (h : InRun c .yielding r m s) (hr : s.ports.rst = false) (hpin : s.ports.pinReady = true)
    (hy : s.blk.yieldCnt = c.yieldUs) : ∃ u, step s = .next u ∧ SendStarted c .idleTx 0 r m u := by
  obtain ⟨_, _, _, hstarts, _⟩ := yieldCountsThenIdle s h.ok hr h.mode h.phase
  have hs := hstarts (by rw [h.cfg, hy]) hpin
  exact ⟨_, hs, sendStarted_of_step h.ok h.cfg hs h.mode rfl h.rotIdx h.lastPatternMs⟩

theorem YieldStarted.yieldsFor (h : YieldStarted c r m s) (hn : n < c.yieldUs) (hH : pinHeld s n) :
    ∃ t, steps n s = .next t ∧ InRun c .yielding r m t ∧ t.blk.yieldCnt = n + 1 := by
  obtain ⟨hR, hone⟩ := h.yields (by omega)
  obtain ⟨t, ht, hRt, hcnt⟩ := hR.yieldCounts (by omega) hH
  exact ⟨t, ht, hRt, by omega⟩

/-- `Y` ticks after `StartYield()` the idle send starts, for `Y = 0` in the same tick (45_scheduler.md R165, R166). -/
theorem YieldStarted.thenIdle (h : YieldStarted c r m s) (hH : pinHeld s c.yieldUs) :
    ∃ t, steps c.yieldUs s = .next t ∧ SendStarted c .idleTx 0 r m t := by
  cases hy : c.yieldUs with
  | zero => exact ⟨s, rfl, h.sends hy⟩
  | succ n =>
    rw [hy] at hH
    obtain ⟨t, ht, hR, hcnt⟩ := h.yieldsFor (n := n) (by omega) (pinHeld_mono hH n.le_succ)
    obtain ⟨hr, hpin⟩ := pinHeld_of_steps hH ht 0 Nat.one_pos
    obtain ⟨u, hu, hS⟩ := hR.yieldEnds hr hpin (by omega)
    exact ⟨u, steps_succ_of_last ht hu, hS⟩

/-! ### The idle send and the pattern send, with their ends -/

/-- The time of the check is that of the last tick of the idle send. -/
theorem SendStarted.thenCheck (h : SendStarted c .idleTx slot r m s) (hH : pinHeld s (txTicks c)) :
    let m' := (s.blk.nowUs + BitVec.ofNat 64 (txTicks c - 1)) / 1000#64
    (c.rotMs < (m' - m).toNat → ∃ u, steps (txTicks c) s = .next u ∧ SendStarted c .patternTx (1 + r) r m' u) ∧
    (¬ c.rotMs < (m' - m).toNat → ∃ u, steps (txTicks c) s = .next u ∧ YieldStarted c r m u) := by
  intro m'
  obtain ⟨t, ht, hR, hd, hr, hpin, hnow⟩ := h.completes hH
  have hm' : nowMs t.blk = m' := by rw [nowMs, hnow]
  have hdue := rotationDue_iff t
  rw [hm', hR.cfg, hR.lastPatternMs] at hdue
  rw [← Nat.sub_add_cancel (one_le_txTicks (h.cfg ▸ h.ok.cfgWf)), ← hdue, ← hm']
  refine ⟨fun hfires => ?_, fun hpasses => ?_⟩
  · obtain ⟨u, hu, hS⟩ := hR.checkFires hd hr hpin hfires
    exact ⟨u, steps_succ_of_last ht hu, hS⟩
  · obtain ⟨u, hu, hY⟩ := hR.checkPasses hd hr hpin hpasses
    exact ⟨u, steps_succ_of_last ht hu, hY⟩

theorem SendStarted.thenPatternEnds (h : SendStarted c .patternTx slot r m s) (hH : pinHeld s (txTicks c)) :
    ∃ u, steps (txTicks c) s = .next u ∧ YieldStarted c ((r + 1) % c.numPatterns) m u := by
  obtain ⟨t, ht, hR, hd, hr, hpin, _⟩ := h.completes hH
  obtain ⟨u, hu, hY⟩ := hR.patternEnds hd hr hpin
  rw [← Nat.sub_add_cancel (one_le_txTicks (h.cfg ▸ h.ok.cfgWf))]
  exact ⟨u, steps_succ_of_last ht hu, hY⟩

end Iteration

/-- Settles O37: the idle send and its check, and then the yield up to the next idle send. -/
theorem iterationWithoutPattern : Obligations.IterationWithoutPattern := by
  unfold Obligations.IterationWithoutPattern
  intro s hI hj hm hp hH hpasses
  have hS := sendStarted_of_justStarted hI hj hm hp
  obtain ⟨u, hu, hY⟩ := (hS.thenCheck (pinHeld_mono hH (Nat.le_add_right ..))).2 hpasses
  have hHu := pinHeld_of_steps hH hu
  refine ⟨fun n hle hlt => ?_, ?_⟩
  · obtain ⟨k, rfl⟩ := Nat.exists_eq_add_of_le hle
    obtain ⟨t, ht, hR, _⟩ := hY.yieldsFor (n := k) (by omega) (pinHeld_mono hHu (by omega))
    exact ⟨t, (steps_add _ k s u hu).trans ht, hR.phase, hR.inactive_low⟩
  · obtain ⟨t, ht, hT⟩ := hY.thenIdle hHu
    exact ⟨t, (steps_add _ _ s u hu).trans ht, hT.started, hT.mode, hT.phase, hT.slot, hT.rotIdx, hT.lastPatternMs⟩

/-- Settles O38: the idle send and its check, the pattern send and its end, and then the yield up to the next idle send. -/
theorem iterationWithPattern : Obligations.IterationWithPattern := by
  unfold Obligations.IterationWithPattern
  intro s hI hj hm hp hH m hfires
  have hS := sendStarted_of_justStarted hI hj hm hp
  rw [Nat.two_mul] at hH ⊢
  obtain ⟨u, hu, hP⟩ := (hS.thenCheck (pinHeld_mono hH (by omega))).1 hfires
  have hHu : pinHeld u (txTicks s.cfg + s.cfg.yieldUs) := pinHeld_of_steps (by rwa [← Nat.add_assoc]) hu
  obtain ⟨v, huv, hY⟩ := hP.thenPatternEnds (pinHeld_mono hHu (Nat.le_add_right ..))
  have hv := (steps_add _ _ s u hu).trans huv
  have hHv := pinHeld_of_steps hHu huv
  refine ⟨⟨u, hu, hP.started, hP.phase, hP.slot, hP.rotIdx, hP.lastPatternMs⟩, fun n hle hlt => ?_,
    ⟨v, hv, hY.rotIdx, fun hy => ?_⟩, fun n hle hlt => ?_, ?_⟩
  · obtain ⟨k, rfl⟩ := Nat.exists_eq_add_of_le hle
    obtain ⟨t, ht, hR, hact, hslot, _⟩ := hP.goesOn (n := k) (by omega) (pinHeld_mono hHu (by omega))
    exact ⟨t, (steps_add _ k s u hu).trans ht, hR.phase, hact, hslot, hR.rotIdx⟩
  · obtain ⟨hR, hcnt⟩ := hY.yields (by omega)
    exact ⟨hR.phase, hcnt⟩
  · obtain ⟨k, rfl⟩ := Nat.exists_eq_add_of_le hle
    obtain ⟨t, ht, hR, _⟩ := hY.yieldsFor (n := k) (by omega) (pinHeld_mono hHv (by omega))
    obtain ⟨hact, hlow⟩ := hR.inactive_low
    exact ⟨t, (steps_add _ k s v hv).trans ht, hR.phase, hact, hlow, hR.rotIdx⟩
  · obtain ⟨t, ht, hT⟩ := hY.thenIdle hHv
    exact ⟨t, (steps_add _ _ s v hv).trans ht, hT.started, hT.mode, hT.phase, hT.slot, hT.rotIdx, hT.lastPatternMs⟩

/-! ### The spacing of the patterns -/

/-- The timestamp is a millisecond that `now_us` has reached, and is `lo` or later. -/
def StampSince (lo : Nat) (s : State) : Prop :=
  lo ≤ s.blk.lastPatternMs.toNat ∧ s.blk.lastPatternMs.toNat ≤ s.blk.nowUs.toNat / 1000

section Spacing

variable {lo n : Nat} {s t : State}

theorem step_next_nowUs_toNat (hr : s.ports.rst = false) (hw : s.blk.nowUs.toNat + 1 < 2 ^ 64)
    (h : step s = .next t) : t.blk.nowUs.toNat = s.blk.nowUs.toNat + 1 := by
  rw [step_next_nowUs h, hr]
  simpa using Nat.mod_eq_of_lt hw

/-- A check that starts a pattern stamps the present millisecond. -/
theorem stampSince_of_startsPattern (hI : StateOk s) (hr : s.ports.rst = false) (hw : s.blk.nowUs.toNat + 1 < 2 ^ 64)
    (hs : startsPattern s) (h : step s = .next t) : StampSince (s.blk.nowUs.toNat / 1000) t := by
  rw [StampSince, step_next_lastPatternMs hI hr h, if_pos hs, nowMs_toNat, step_next_nowUs_toNat hr hw h]
  exact ⟨Nat.le_refl _, Nat.div_le_div_right (Nat.le_succ _)⟩

theorem stampSince_step (hI : StateOk s) (hr : s.ports.rst = false) (hw : s.blk.nowUs.toNat + 1 < 2 ^ 64)
    (hS : StampSince lo s) (h : step s = .next t) : StampSince lo t := by
  obtain ⟨hlo, hhi⟩ := hS
  have hnow := step_next_nowUs_toNat hr hw h
  by_cases hs : startsPattern s
  · obtain ⟨hlo', hhi'⟩ := stampSince_of_startsPattern hI hr hw hs h
    exact ⟨Nat.le_trans hlo (Nat.le_trans hhi hlo'), hhi'⟩
  · rw [StampSince, step_next_lastPatternMs hI hr h, if_neg hs]
    exact ⟨hlo, by omega⟩

/-- A run without reset, in which `now_us` does not wrap, keeps it. -/
theorem stampSince_steps (hI : StateOk s) (hr : noReset s n) (hw : s.blk.nowUs.toNat + n < 2 ^ 64)
    (hS : StampSince lo s) (h : steps n s = .next t) :
    StampSince lo t ∧ t.blk.nowUs.toNat = s.blk.nowUs.toNat + n := by
  induction n generalizing s with
  | zero => cases h; exact ⟨hS, rfl⟩
  | succ n ih =>
    obtain ⟨u, hu, ht⟩ := steps_succ_eq_next_iff.mp h
    obtain ⟨hrst, hru⟩ := noReset_succ hr hu
    have hnow := step_next_nowUs_toNat hrst (by omega) hu
    obtain ⟨hT, hnowT⟩ := ih (stepKeepsInvariants s u hI hu) hru (by omega) (stampSince_step hI hrst (by omega) hS hu) ht
    exact ⟨hT, by omega⟩

/-- The strict test of R162 on natural numbers, for a timestamp that is not in the future. -/
theorem rotationDue_toNat (hS : StampSince lo s) (hdue : rotationDue s = true) :
    lo + s.cfg.rotMs < s.blk.nowUs.toNat / 1000 := by
  obtain ⟨hlo, hhi⟩ := hS
  rw [← nowMs_toNat] at hhi ⊢
  rw [rotationDue_iff, BitVec.toNat_sub_of_le hhi] at hdue
  omega

end Spacing

/-- Settles O39: the second check's timestamp is not before the first's millisecond, and its own millisecond is more than `R`
later. -/
theorem patternChecksAreSpaced : Obligations.PatternChecksAreSpaced := by
  unfold Obligations.PatternChecksAreSpaced
  intro n s t hI hr h hm hp hd hdue _ _ _ hdue' hw
  obtain ⟨u, hu, ht⟩ := steps_succ_eq_next_iff.mp h
  obtain ⟨hrst, hru⟩ := noReset_succ hr hu
  have hnowU := step_next_nowUs_toNat hrst (by omega) hu
  have hU := stampSince_of_startsPattern hI hrst (by omega) ⟨hm, hp, hd, hdue⟩ hu
  obtain ⟨hT, hnowT⟩ := stampSince_steps (stepKeepsInvariants s u hI hu) hru (by omega) hU ht
  have hspaced := rotationDue_toNat hT hdue'
  rw [steps_next_cfg h] at hspaced
  omega

end Sys2Proof.Proofs
end

section
/-! The commands (46_commands.md R181-R186): what each does in part B, and what it leaves unchanged. -/

namespace Sys2Proof.Proofs

open Sys2Proof.Machine Sys2Proof.Laws

/-! ### The illegal commands -/

/-- All 28 illegal rows have the one effect of R186. -/
theorem exec_of_illegal {i : Instr} (h : i.isLegal = false) (s : State) : exec i s = .next (illegalCommand s) := by
  cases i
  case nop | run | txIdle | txNext => cases h
  all_goals rfl

/-- Settles O13: each of the 28 rows is illegal. -/
theorem illegalCommandsComplete : Obligations.IllegalCommandsComplete := by
  unfold Obligations.IllegalCommandsComplete
  intro s m4 m3 m2 m1 t
  and_intros <;> exact exec_of_illegal rfl s

/-! ### Decoding by `OP` and `MBZ` -/

theorem isLegal_decode_iff_fields (w : Byte) :
    (decode w).isLegal = true ↔ mbzField w = 0#4 ∧ (opField w).toNat ≤ 3 := by
  rw [isLegal_decode_iff]
  revert w; decide

/-- The legal command of an `OP`: its word is `OP` and a zero `MBZ` (30_encoding.md R71). -/
theorem decode_of_fields {w : Byte} {op : BitVec 4} {i : Instr} (hm : mbzField w = 0#4) (ho : opField w = op)
    (hi : encode i = op ++ 0#4) : decode w = i := by
  rw [decode_eq_iff, hi, ← hm, append_mbzField (congrArg BitVec.toNat ho)]

/-- Settles O2: a word is its two fields, so one with a zero `MBZ` and an `OP` of at most 3 is the encoding of a legal command;
any other is illegal. -/
theorem decodingDispatchesOnOp : Obligations.DecodingDispatchesOnOp := by
  unfold Obligations.DecodingDispatchesOnOp
  intro w s op mbz
  have hlegal := isLegal_decode_iff_fields w
  refine ⟨hlegal, fun hm ho => ?_, fun hm ho => ?_, fun hm ho => ?_, fun hm ho => ?_, fun hn => ?_⟩
  · rw [decode_of_fields hm ho mbzRows_nop.encode_legal]
  · rw [decode_of_fields hm ho mbzRows_run.encode_legal]
  · rw [decode_of_fields hm ho mbzRows_txIdle.encode_legal]
  · rw [decode_of_fields hm ho mbzRows_txNext.encode_legal]
  · exact exec_of_illegal (Bool.eq_false_iff.mpr fun h => hn (hlegal.mp h)) s

/-! ### The commands that start a transmission -/

/-- What a command calls `tx_start` with: the slot, and the record `b` with the command's mode and kind set (R183-R185). -/
inductive CommandStart (b : Block) : Instr → Nat → Block → Prop where
  | run : CommandStart b .run 0 { b with mode := .run, runPhase := .idleTx }
  | txIdle : CommandStart b .txIdle 0 { b with mode := .oneshot, osKind := .idle }
  | txNext : CommandStart b .txNext (1 + b.rotIdx) { b with mode := .oneshot, osKind := .pattern }

section CommandStart

variable {s t : State} {i : Instr} {slot : Nat} {b : Block}

theorem exec_of_commandStart (h : CommandStart s.blk i slot b) :
    exec i s = (txStart slot { s with blk := b }).outcome := by
  cases h <;> rfl

/-- The pattern slots are `1 + p` for `p < P`, and the index is below `P` (44_pattern_library.md R151). -/
theorem commandStart_slot_le (hI : StateOk s) (h : CommandStart s.blk i slot b) : slot ≤ s.cfg.numPatterns := by
  have := hI.rotRange
  cases h <;> omega

theorem exec_of_commandStart_of_ready (hI : StateOk s) (h : CommandStart s.blk i slot b)
    (hpin : s.ports.pinReady = true) : exec i s = .next { s with blk := startedBlock s.cfg slot b } :=
  (exec_of_commandStart h).trans (congrArg Act.outcome
    (txStart_of_ready slot { s with blk := b } hI.cfgWf.1 (commandStart_slot_le hI h :) hpin))

theorem exec_of_commandStart_of_not_ready (hI : StateOk s) (h : CommandStart s.blk i slot b)
    (hpin : s.ports.pinReady = false) : exec i s = .next { s with blk := failedStartBlock s.cfg slot b } :=
  (exec_of_commandStart h).trans (congrArg Act.outcome
    (txStart_of_not_ready slot { s with blk := b } hI.cfgWf.1 (commandStart_slot_le hI h :) hpin))

end CommandStart

/-- Settles O10: RUN is a start of slot 0. -/
theorem runCompletes : Obligations.RunCompletes := fun _ hI =>
  ⟨exec_of_commandStart_of_ready hI .run, exec_of_commandStart_of_not_ready hI .run⟩

/-- Settles O11: TX_IDLE is a start of slot 0. -/
theorem txIdleCompletes : Obligations.TxIdleCompletes := fun _ hI =>
  ⟨exec_of_commandStart_of_ready hI .txIdle, exec_of_commandStart_of_not_ready hI .txIdle⟩

/-- Settles O12: TX_NEXT is a start of slot `1 + rot_idx`. -/
theorem txNextCompletes : Obligations.TxNextCompletes := fun _ hI =>
  ⟨exec_of_commandStart_of_ready hI .txNext, exec_of_commandStart_of_not_ready hI .txNext,
    Nat.le_add_right 1 _, commandStart_slot_le hI .txNext⟩

/-! ### The frame of the commands -/

section CommandFrame

variable {s t : State} {i : Instr} {slot : Nat}

/-- `tx_start` of a slot the frame store does not have gives no meaning (20_memory.md R50). -/
theorem txStart_of_noSlot (h : ¬ frameAddr s.cfg slot 0 < s.cfg.storeSize) :
    txStart slot s = .stop .noSuchFrameByte := by
  rw [txStart, loadByte, memRead_of_ge _ _ (by exact h)]
  rfl

/-- The slots whose first byte is in the frame store are those it holds. -/
theorem slot_le_of_frameAddr_lt {c : Config} (h : frameAddr c slot 0 < c.storeSize) :
    1 ≤ c.frameLen ∧ slot ≤ c.numPatterns := by
  have hlt : slot * c.frameLen < (c.numPatterns + 1) * c.frameLen := h
  exact ⟨Nat.pos_of_mul_pos_left (Nat.zero_lt_of_lt hlt), Nat.le_of_lt_succ (Nat.lt_of_mul_lt_mul_right hlt)⟩

/-- Where `tx_start` answers, from any state, it has made its first bit write or failed it (43_frame_transmitter.md R130,
60_exceptions.md R201). -/
theorem txStart_next_cases (h : (txStart slot s).outcome = .next t) :
    (s.ports.pinReady = true ∧ t = { s with blk := startedBlock s.cfg slot s.blk }) ∨
    (s.ports.pinReady = false ∧ t = { s with blk := failedStartBlock s.cfg slot s.blk }) := by
  by_cases ha : frameAddr s.cfg slot 0 < s.cfg.storeSize
  · obtain ⟨hN, hs⟩ := slot_le_of_frameAddr_lt ha
    cases hpin : s.ports.pinReady
    · rw [txStart_of_not_ready slot s hN hs hpin] at h
      exact .inr ⟨rfl, (Host.Outcome.next.inj h).symm⟩
    · rw [txStart_of_ready slot s hN hs hpin] at h
      exact .inl ⟨rfl, (Host.Outcome.next.inj h).symm⟩
  · rw [txStart_of_noSlot ha] at h
    cases h

theorem exists_commandStart (h : startsTransmission i = true) (b : Block) : ∃ slot b', CommandStart b i slot b' := by
  cases i
  case run => exact ⟨_, _, .run⟩
  case txIdle => exact ⟨_, _, .txIdle⟩
  case txNext => exact ⟨_, _, .txNext⟩
  all_goals cases h

/-- Everything a command that answers has done: nothing, `cmd_err`, or a start made or failed (R182-R186). -/
theorem exec_next_cases (h : exec i s = .next t) :
    (i = .nop ∧ t = s) ∨ (i.isLegal = false ∧ t = illegalCommand s) ∨
    ∃ slot b, CommandStart s.blk i slot b ∧
      ((s.ports.pinReady = true ∧ t = { s with blk := startedBlock s.cfg slot b }) ∨
       (s.ports.pinReady = false ∧ t = { s with blk := failedStartBlock s.cfg slot b })) := by
  cases hl : i.isLegal
  · rw [exec_of_illegal hl] at h
    exact .inr (.inl ⟨rfl, (Host.Outcome.next.inj h).symm⟩)
  by_cases hi : i = .nop
  · subst hi
    exact .inl ⟨rfl, (Host.Outcome.next.inj h).symm⟩
  · obtain ⟨slot, b, hc⟩ := exists_commandStart (i := i) (by simp [startsTransmission, hl, hi]) s.blk
    rw [exec_of_commandStart hc] at h
    exact .inr (.inr ⟨slot, b, hc, txStart_next_cases h⟩)

end CommandFrame

/-- Settles O15: what stands around the record no command changes, and the record is as it was, or changed by `cmd_err`, or by a
start. -/
theorem commandFrame : Obligations.CommandFrame := by
  unfold Obligations.CommandFrame
  intro i s t h
  have hF := exec_frame i s t h
  refine ⟨hF.cfg, fun a => by rw [hF.cfg], hF.ports, hF.feed, hF.pad, hF.padDraws, hF.resetSeen, hF.nowUs, ?_⟩
  rcases exec_next_cases h with ⟨rfl, rfl⟩ | ⟨hl, rfl⟩ | ⟨slot, b, hc, ⟨hpin, rfl⟩ | ⟨hpin, rfl⟩⟩
  · simp [startsTransmission]
  · simp [startsTransmission, hl]
  · cases hc <;> simp [startsTransmission, Instr.isLegal, startedBlock]
  · cases hc <;> simp [startsTransmission, Instr.isLegal, failedStartBlock, hpin]

end Sys2Proof.Proofs
end

section
/-! The tick of an accepted word (46_commands.md R180-R188): part B is the command, and part C closes the tick. -/

namespace Sys2Proof.Proofs

open Sys2Proof.Machine Sys2Proof.Laws

section Accepted

variable {s t : State} {w : Byte} {i : Instr} {slot : Nat} {b : Block}

/-- Part A does nothing, part B is the decoded command, and part C happens (46_commands.md R188). -/
theorem step_of_accepted (hc : s.cfg.wf) (hs : s.resetSeen = true) (ht : s.blk.txActive = false)
    (ha : accepted s = some w) : step s = closeOutcome (exec (decode w) s) := by
  obtain ⟨hr, _, hm, _⟩ := (accepted_eq_some s w).mp ha
  rw [step_of_wf s hc (.inl hs), tick_of_go s s hr (partA_of_still s ht)]
  simp [partB, hm, ha]

theorem step_of_accepted_of_ok (hI : StateOk s) (ha : accepted s = some w) :
    step s = closeOutcome (exec (decode w) s) := by
  obtain ⟨_, _, hm, _⟩ := (accepted_eq_some s w).mp ha
  exact step_of_accepted hI.cfgWf hI.wasReset (hI.stillIdle (.inl hm)) ha

theorem step_of_accepted_next (hI : StateOk s) (ha : accepted s = some w) (h : exec (decode w) s = .next t) :
    step s = .next (closeTickC t) := by
  rw [step_of_accepted_of_ok hI ha, h, closeOutcome]

end Accepted

/-- Settles O16: the step of an accepted word, and the laws of `closeTickC`. -/
theorem stepRunsDecodedCommand : Obligations.StepRunsDecodedCommand :=
  ⟨fun _ _ hc hs ht ha => step_of_accepted hc hs ht ha,
    fun t => ⟨closeTickC_cfg t, closeTickC_blk t, closeTickC_ports t, closeTickC_feed t⟩⟩

/-- Settles O9: `0x00` decodes to NOP, so part C is all its tick does. -/
theorem nopCompletes : Obligations.NopCompletes := by
  unfold Obligations.NopCompletes
  refine ⟨fun _ => rfl, fun s hI ha => ⟨closeTickC s, ?_, closeTickC_cfg s, closeTickC_blk s, ?_⟩⟩
  · exact step_of_accepted_next hI ha (by rw [show decode 0x00#8 = .nop from decode_encode .nop]; rfl)
  · obtain ⟨_, _, hm, _⟩ := (accepted_eq_some s _).mp ha
    simp [cmdReady, hm]

/-! ### A word placed on the port -/

section Placed

variable {s : State} (w : Byte)

/-- The word of `withFetchWord` is the byte given as a number of 8 bits. -/
theorem withFetchWord_toNat (s : State) : s.withFetchWord 8 w.toNat = presentWord s w := by
  rw [State.withFetchWord, Nat.mod_eq_of_lt w.isLt, BitVec.ofNat_toNat, BitVec.setWidth_eq]

theorem decodeTableWord_toNat : decodeTableWord 8 w.toNat = some (decode w) := by
  rw [decodeTableWord, if_pos (Nat.le_refl 8), Nat.mod_eq_of_lt w.isLt, BitVec.ofNat_toNat, BitVec.setWidth_eq]

theorem presentWord_cfg (s : State) : (presentWord s w).cfg = s.cfg := by
  unfold presentWord
  split <;> rfl

/-- A READY block keeps its record; any other is reset first (log entry 7). -/
theorem presentWord_blk (hI : StateOk s) :
    (presentWord s w).blk = if s.blk.mode = .ready then s.blk else Block.reset := by
  simp only [presentWord, hI.wasReset, true_and]
  split <;> rfl

theorem stateOk_presentWord (hI : StateOk s) : StateOk (presentWord s w) := by
  by_cases hm : s.blk.mode = .ready
  · exact stateOk_of_same (by simp [presentWord, hI.wasReset, hm]) (presentWord_cfg w s)
      (by rw [presentWord_blk w hI, if_pos hm]) hI
  · exact stateOk_of_same (s := takeReset s) (by simp [presentWord, hI.wasReset, hm]) (presentWord_cfg w s)
      (by rw [presentWord_blk w hI, if_neg hm, takeReset_blk]) (stateOk_takeReset hI.cfgWf)

theorem accepted_presentWord (hI : StateOk s) : accepted (presentWord s w) = some w := by
  rw [accepted_eq_some, presentWord_blk w hI]
  refine ⟨rfl, rfl, ?_, rfl⟩
  split
  · assumption
  · rfl

end Placed

/-- Settles O17: the state with the word placed meets the invariants and accepts the word. -/
theorem fetchWordRunsDecodedCommand : Obligations.FetchWordRunsDecodedCommand := by
  unfold Obligations.FetchWordRunsDecodedCommand
  intro s w hI s0
  have hs0 : s0 = presentWord s w := withFetchWord_toNat w s
  have hI0 := stateOk_presentWord w hI
  have ha0 := accepted_presentWord w hI
  rw [hs0]
  exact ⟨decodeTableWord_toNat w, hI0, ha0, fun hm => by rw [presentWord_blk w hI, if_pos hm], presentWord_cfg w s,
    step_of_accepted_of_ok hI0 ha0⟩

/-! ### An illegal word -/

section Illegal

variable {s t : State} {w : Byte} {n : Nat}

theorem eventOf_of_illegalAccepted (h : illegalAccepted s = true) (t : State) : eventOf s t = .illegalCommand := by
  rw [eventOf, if_pos h]

/-- No tick but reset clears CMD_ERR (10_state.md R25). -/
theorem steps_next_cmdErr (hI : StateOk s) (hr : noReset s n) (he : s.blk.cmdErr = true) (h : steps n s = .next t) :
    t.blk.cmdErr = true := by
  induction n generalizing s with
  | zero => cases h; exact he
  | succ n ih =>
    obtain ⟨u, hu, ht⟩ := steps_succ_eq_next_iff.mp h
    obtain ⟨hrst, hru⟩ := noReset_succ hr hu
    obtain ⟨_, _, hsticky, _⟩ := (flagsAreSticky s u hI hu).2 hrst
    exact ih (stepKeepsInvariants s u hI hu) hru (by rw [hsticky, he, Bool.true_or]) ht

end Illegal

/-- Settles O14: the tick sets `cmd_err` and closes, the mode is READY still, and only reset clears `cmd_err`. -/
theorem illegalWordIsNotFatal : Obligations.IllegalWordIsNotFatal := by
  unfold Obligations.IllegalWordIsNotFatal
  intro s w hI ha hl
  have hs := step_of_accepted_next hI ha (exec_of_illegal hl s)
  obtain ⟨_, _, hm, _⟩ := (accepted_eq_some s w).mp ha
  refine ⟨_, hs, closeTickC_cfg _, closeTickC_blk _, ?_, ?_, fun v i rest hf hr hv hw => ?_, fun n u hr h => ?_⟩
  · rw [status_getLsbD, closeTickC_blk]
    rfl
  · exact eventOf_of_illegalAccepted ((illegalAccepted_iff s).mpr ⟨w, ha, hl⟩) _
  · rw [accepted_eq_some]
    simp [hf, hr, hv, hw, hm]
  · exact steps_next_cmdErr (stepKeepsInvariants s _ hI hs) hr (by simp) h

end Sys2Proof.Proofs
end

section
/-! A command that is not accepted has no effect at all (46_commands.md R180): the parts of a tick read neither `cmd_valid` nor
`cmd`, and the end of the tick replaces both. -/

namespace Sys2Proof.Proofs

open Sys2Proof.Machine Sys2Proof.Laws

/-- The state with another presentation on the command port. -/
def withCommand (v : Bool) (w : Byte) (s : State) : State :=
  { s with ports := { s.ports with cmdValid := v, cmd := w } }

/-- An action's end with its state changed. -/
def mapAct (f : State → State) : Act → Act
  | .go s => .go (f s)
  | .raised p s => .raised p (f s)
  | .stop e => .stop e

/-- An action ends in the same way with another presentation on the port, which it leaves there. -/
def CommandBlind (f : State → Act) : Prop :=
  ∀ v w s, f (withCommand v w s) = mapAct (withCommand v w) (f s)

@[simp] theorem withCommand_cfg (v : Bool) (w : Byte) (s : State) : (withCommand v w s).cfg = s.cfg := rfl
@[simp] theorem withCommand_blk (v : Bool) (w : Byte) (s : State) : (withCommand v w s).blk = s.blk := rfl
@[simp] theorem withCommand_rst (v : Bool) (w : Byte) (s : State) : (withCommand v w s).ports.rst = s.ports.rst := rfl

/-! ### The actions of parts A and B -/

theorem commandBlind_andThen {f g : State → Act} (hf : CommandBlind f) (hg : CommandBlind g) :
    CommandBlind fun s => (f s).andThen g := fun v w s => by
  simp only [hf v w s]
  cases f s with
  | go t => exact hg v w t
  | raised p t => rfl
  | stop e => rfl

theorem commandBlind_ite {p : State → Prop} [DecidablePred p] {f g : State → Act}
    (hp : ∀ v w s, p (withCommand v w s) ↔ p s) (hf : CommandBlind f) (hg : CommandBlind g) :
    CommandBlind fun s => if p s then f s else g s := fun v w s => by
  by_cases h : p s
  · simp only [if_pos h, if_pos ((hp v w s).mpr h), hf v w s]
  · simp only [if_neg h, if_neg (mt (hp v w s).mp h), hg v w s]

/-- An action that only sets the record, by what it finds in the configuration and the record. -/
theorem commandBlind_setBlk (f : Config → Block → Block) : CommandBlind fun s => .go { s with blk := f s.cfg s.blk } :=
  fun _ _ _ => rfl

/-- An action on a record set so. -/
theorem commandBlind_onBlk {g : State → Act} (f : Config → Block → Block) (hg : CommandBlind g) :
    CommandBlind fun s => g { s with blk := f s.cfg s.blk } := fun v w s => hg v w { s with blk := f s.cfg s.blk }

theorem commandBlind_setLevel (l : Level) (p : FaultPos) : CommandBlind (setLevel l p) :=
  commandBlind_ite (p := fun s => s.ports.pinReady = true) (fun _ _ _ => Iff.rfl) (fun _ _ _ => rfl) (fun _ _ _ => rfl)

theorem commandBlind_loadByte : CommandBlind loadByte := fun v w s => by
  simp only [loadByte, withCommand_cfg, withCommand_blk]
  split <;> rfl

theorem commandBlind_emitBit : CommandBlind emitBit := fun v w s =>
  commandBlind_andThen (g := fun t => .go (bitSent t))
    (commandBlind_setLevel (sendLevel s.blk.workByte) (.bitWrite s.blk.byteIdx s.blk.bitIdx)) (fun _ _ _ => rfl) v w s

theorem commandBlind_loadThenEmit : CommandBlind fun s => (loadByte s).andThen emitBit :=
  commandBlind_andThen commandBlind_loadByte commandBlind_emitBit

theorem commandBlind_txStart (slot : Nat) : CommandBlind (txStart slot) :=
  commandBlind_onBlk (fun _ b => { b with txActive := true, txSlot := slot, txPhase := .bit, byteIdx := 0, bitIdx := 0 })
    commandBlind_loadThenEmit

theorem commandBlind_nextCell : CommandBlind nextCell :=
  commandBlind_ite (p := fun s => s.blk.bitIdx < 7) (fun _ _ _ => Iff.rfl)
    (commandBlind_onBlk (fun _ b => { b with bitIdx := b.bitIdx + 1 }) commandBlind_emitBit)
    (commandBlind_onBlk (fun _ b => { b with byteIdx := b.byteIdx + 1, bitIdx := 0 }) commandBlind_loadThenEmit)

theorem commandBlind_gapWrite : CommandBlind gapWrite :=
  commandBlind_onBlk (g := fun s => (setLevel .low .gapWrite s).andThen fun t => .go { t with blk := { t.blk with cnt := 1 } })
    (fun _ b => { b with txPhase := .gap }) (commandBlind_andThen (commandBlind_setLevel .low .gapWrite) (fun _ _ _ => rfl))

theorem gapTick_withCommand (v : Bool) (w : Byte) (s : State) :
    gapTick (withCommand v w s) = withCommand v w (gapTick s) := by
  have hcond : gapElapsed (withCommand v w s) = gapElapsed s := rfl
  rw [gapTick, hcond, gapTick]
  cases gapElapsed s <;> rfl

/-- Part A in a bit cell. -/
theorem commandBlind_bitTick : CommandBlind fun s =>
    if s.blk.cnt < s.cfg.bitUs then .go (countTick s) else if lastCell s then gapWrite s else nextCell s :=
  commandBlind_ite (p := fun s => s.blk.cnt < s.cfg.bitUs) (fun _ _ _ => Iff.rfl) (fun _ _ _ => rfl)
    (commandBlind_ite (p := fun s => lastCell s = true) (fun _ _ _ => Iff.rfl) commandBlind_gapWrite commandBlind_nextCell)

theorem commandBlind_partA : CommandBlind partA :=
  commandBlind_ite (p := fun s => s.blk.txActive = true) (fun _ _ _ => Iff.rfl)
    (fun v w s => by
      cases hp : s.blk.txPhase
      · simp only [withCommand_blk, hp]
        exact commandBlind_bitTick v w s
      · simp only [withCommand_blk, hp]
        exact congrArg Act.go (gapTick_withCommand v w s))
    (fun _ _ _ => rfl)

theorem commandBlind_startIdle : CommandBlind startIdle :=
  commandBlind_onBlk (fun _ b => { b with runPhase := .idleTx }) (commandBlind_txStart idleSlot)

theorem commandBlind_startYield : CommandBlind startYield :=
  commandBlind_ite (p := fun s => s.cfg.yieldUs = 0) (fun _ _ _ => Iff.rfl) commandBlind_startIdle (fun _ _ _ => rfl)

theorem commandBlind_rotationCheck : CommandBlind rotationCheck :=
  commandBlind_ite (p := fun s => rotationDue s = true) (fun _ _ _ => Iff.rfl)
    (fun v w s => commandBlind_txStart (nextSlot s.blk) v w
      { s with blk := { s.blk with lastPatternMs := nowMs s.blk, runPhase := .patternTx } })
    commandBlind_startYield

theorem commandBlind_yieldTick : CommandBlind yieldTick :=
  commandBlind_ite (p := fun s => s.blk.yieldCnt < s.cfg.yieldUs) (fun _ _ _ => Iff.rfl) (fun _ _ _ => rfl)
    commandBlind_startIdle

theorem commandBlind_runTick (p : RunPhase) (d : Bool) : CommandBlind (runTick p d) := by
  cases p with
  | idleTx => exact commandBlind_ite (p := fun _ => d = true) (fun _ _ _ => Iff.rfl) commandBlind_rotationCheck fun _ _ _ => rfl
  | patternTx =>
    exact commandBlind_ite (p := fun _ => d = true) (fun _ _ _ => Iff.rfl)
      (fun v w s => commandBlind_startYield v w (advanceRotation s)) fun _ _ _ => rfl
  | yielding => exact commandBlind_yieldTick

theorem oneshotEnd_withCommand (v : Bool) (w : Byte) (s : State) :
    oneshotEnd (withCommand v w s) = withCommand v w (oneshotEnd s) := by
  rw [oneshotEnd_blk, oneshotEnd_blk]
  rfl

/-! ### The tick -/

section Tick

variable (v : Bool) (w : Byte) {s : State}

/-- The end of the tick puts the next inputs on the ports, whatever stood there. -/
theorem closeTick_withCommand (s : State) : closeTick (withCommand v w s) = closeTick s := by
  cases hpin : s.ports.pinReady <;> cases hf : s.feed <;> simp [closeTick, latchPad, latchPorts, withCommand, hpin, hf]

theorem closeOutcome_next_withCommand (s : State) :
    closeOutcome (.next (withCommand v w s)) = closeOutcome (.next s) :=
  congrArg Host.Outcome.next (closeTick_withCommand v w (advanceTime s))

theorem closeOutcome_mapAct (a : Act) :
    closeOutcome (mapAct (withCommand v w) a).outcome = closeOutcome a.outcome := by
  cases a with
  | go s | raised p s => exact closeOutcome_next_withCommand v w s
  | stop e => rfl

/-- Part B reads the command port only to accept. -/
theorem closeOutcome_partB_withCommand (ha : accepted s = none) (ha' : accepted (withCommand v w s) = none) (u : State) :
    closeOutcome (partB (withCommand v w s) (withCommand v w u)) = closeOutcome (partB s u) := by
  have hd : txDone (withCommand v w s) = txDone s := rfl
  cases hm : s.blk.mode with
  | ready =>
    simp only [partB, withCommand_blk, hm, ha, ha']
    exact closeOutcome_next_withCommand v w u
  | oneshot =>
    simp only [partB, withCommand_blk, hm, hd, oneshotEnd_withCommand]
    cases txDone s
    · exact closeOutcome_next_withCommand v w u
    · exact closeOutcome_next_withCommand v w (oneshotEnd u)
  | run =>
    simp only [partB, withCommand_blk, hm, hd, commandBlind_runTick s.blk.runPhase (txDone s) v w u]
    exact closeOutcome_mapAct v w _
  | halted =>
    simp only [partB, withCommand_blk, hm]
    exact closeOutcome_next_withCommand v w u

theorem tick_withCommand (ha : accepted s = none) (ha' : accepted (withCommand v w s) = none) :
    tick (withCommand v w s) = tick s := by
  simp only [tick, commandBlind_partA v w s, withCommand_rst]
  cases s.ports.rst
  · cases partA s with
    | go u => exact closeOutcome_partB_withCommand v w ha ha' u
    | raised p u => exact closeOutcome_next_withCommand v w u
    | stop e => rfl
  · exact congrArg Host.Outcome.next (closeTick_withCommand v w (takeReset s))

theorem step_withCommand (ha : accepted s = none) (ha' : accepted (withCommand v w s) = none) :
    step (withCommand v w s) = step s := by
  rw [step, guardedTick, tick_withCommand v w ha ha']
  rfl

end Tick

/-- Settles O18: the handshake's conditions, and the tick that does not accept is blind to the presentation. -/
theorem unacceptedCommandHasNoEffect : Obligations.UnacceptedCommandHasNoEffect := by
  unfold Obligations.UnacceptedCommandHasNoEffect
  refine ⟨fun s w => ?_, fun s v w ha ha' => step_withCommand v w ha ha'⟩
  rw [accepted_eq_some, cmdReady, decide_eq_true_iff]

end Sys2Proof.Proofs
end

section
/-! How long a one-shot takes (46_commands.md R187, R189): its start, its `L` busy ticks, and its end. -/

namespace Sys2Proof.Proofs

open Sys2Proof.Machine Sys2Proof.Laws

/-- A one-shot of kind `k` is in tick `n` of its transmission of `slot` under `c`, with the rotation index `r` and the timestamp
`m`. -/
structure InOneshot (c : Config) (k : OsKind) (slot r : Nat) (m : Time) (n : Nat) (s : State) : Prop where
  ok : StateOk s
  cfg : s.cfg = c
  mode : s.blk.mode = .oneshot
  kind : s.blk.osKind = k
  active : s.blk.txActive = true
  slot : s.blk.txSlot = slot
  rotIdx : s.blk.rotIdx = r
  lastPatternMs : s.blk.lastPatternMs = m
  elapsed : txElapsed s = n

/-- A one-shot of kind `k` has completed: only a pattern's has advanced the index (46_commands.md R187). -/
structure OneshotEnded (c : Config) (k : OsKind) (r : Nat) (m : Time) (s : State) : Prop where
  ready : s.blk.mode = .ready
  inactive : s.blk.txActive = false
  low : s.blk.lineQ = .low
  rotIdx : s.blk.rotIdx = if k = .pattern then (r + 1) % c.numPatterns else r
  lastPatternMs : s.blk.lastPatternMs = m

section Oneshot

variable {c : Config} {k : OsKind} {slot r n : Nat} {m : Time} {s : State} {w : Byte} {b : Block}

theorem commandStart_rotIdx_lastPatternMs {b₀ : Block} {i : Instr} (h : CommandStart b₀ i slot b) :
    b.rotIdx = b₀.rotIdx ∧ b.lastPatternMs = b₀.lastPatternMs := by
  cases h <;> exact ⟨rfl, rfl⟩

/-- The slot and the kind of the two one-shots (46_commands.md R184, R185). -/
theorem exists_oneshotStart {i : Instr} (hi : i = .txIdle ∨ i = .txNext) (b₀ : Block) :
    ∃ slot b, CommandStart b₀ i slot b ∧ b.mode = .oneshot ∧ slot = (if i = .txIdle then 0 else 1 + b₀.rotIdx) ∧
      b.osKind = if i = .txIdle then .idle else .pattern := by
  rcases hi with rfl | rfl
  · exact ⟨_, _, .txIdle, rfl, rfl, rfl⟩
  · exact ⟨_, _, .txNext, rfl, rfl, rfl⟩

/-- The tick that accepts the command makes the first bit write (46_commands.md R184, R185). -/
theorem exists_inOneshot_of_accepted (hI : StateOk s) (ha : accepted s = some w)
    (hc : CommandStart s.blk (decode w) slot b) (hm : b.mode = .oneshot) (hpin : s.ports.pinReady = true) :
    ∃ u, step s = .next u ∧ InOneshot s.cfg b.osKind slot s.blk.rotIdx s.blk.lastPatternMs 1 u := by
  have hs := step_of_accepted_next hI ha (exec_of_commandStart_of_ready hI hc hpin)
  obtain ⟨hrot, hms⟩ := commandStart_rotIdx_lastPatternMs hc
  refine ⟨_, hs, stepKeepsInvariants s _ hI hs, closeTickC_cfg _, ?_, ?_, ?_, ?_, ?_, ?_, ?_⟩
  case refine_7 => exact txElapsed_of_justStarted (by simp [justStarted, startedBlock])
  all_goals simp [startedBlock, hm, hrot, hms]

/-- The ticks within the transmission leave alone all else that `InOneshot` says (43_frame_transmitter.md R136). -/
theorem InOneshot.goesOn (h : InOneshot c k slot r m 1 s) (hn : 1 + n ≤ txTicks c) (hH : pinHeld s n) :
    ∃ t, steps n s = .next t ∧ InOneshot c k slot r m (1 + n) t := by
  obtain ⟨t, hst⟩ := exists_sentFor h.ok h.active (by rwa [h.elapsed, h.cfg]) hH
  exact ⟨t, hst.run, {
    ok := hst.ok
    cfg := hst.cfg.trans h.cfg
    mode := (congrArg Block.mode hst.kept :).trans h.mode
    kind := (congrArg Block.osKind hst.kept :).trans h.kind
    active := hst.active.trans h.active
    slot := hst.txSlot.trans h.slot
    rotIdx := (congrArg Block.rotIdx hst.kept :).trans h.rotIdx
    lastPatternMs := (congrArg Block.lastPatternMs hst.kept :).trans h.lastPatternMs
    elapsed := by rw [hst.elapsed, h.elapsed] }⟩

/-- After its `L` ticks the one-shot completes (46_commands.md R187). -/
theorem InOneshot.ends (h : InOneshot c k slot r m (txTicks c) s) (hr : s.ports.rst = false) :
    ∃ u, step s = .next u ∧ OneshotEnded c k r m u := by
  have hd := (txDone_iff_txElapsed h.ok h.active).mpr (by rw [h.elapsed, h.cfg])
  have hs := step_of_oneshotDone h.ok hr h.mode hd
  rw [oneshotEnd_blk] at hs
  have hlow := (stepKeepsInvariants s _ h.ok hs).lineLow (.inl (by simp))
  exact ⟨_, hs, by simp, by simp, hlow, by simp [h.kind, h.rotIdx, h.cfg], by simp [h.lastPatternMs]⟩

/-- A one-shot is busy for the `L` ticks after the one that accepts it (46_commands.md R189). -/
theorem exists_inOneshot (hI : StateOk s) (ha : accepted s = some w) (hc : CommandStart s.blk (decode w) slot b)
    (hm : b.mode = .oneshot) (hpos : 1 ≤ n) (hn : n ≤ txTicks s.cfg) (hH : pinHeld s n) :
    ∃ t, steps n s = .next t ∧ InOneshot s.cfg b.osKind slot s.blk.rotIdx s.blk.lastPatternMs n t := by
  obtain ⟨j, rfl⟩ := Nat.exists_eq_add_of_le' hpos
  obtain ⟨_, hpin⟩ := hH 0 j.succ_pos
  obtain ⟨u, hu, hU⟩ := exists_inOneshot_of_accepted hI ha hc hm hpin
  obtain ⟨t, ht, hT⟩ := hU.goesOn (by omega) (pinHeld_of_succ hH hu)
  exact ⟨t, (steps_succ_of_next j s u hu).trans ht, by rwa [Nat.add_comm]⟩

/-- It has ended `L + 1` ticks after the state that accepts it (46_commands.md R189). -/
theorem exists_oneshotEnded (hI : StateOk s) (ha : accepted s = some w) (hc : CommandStart s.blk (decode w) slot b)
    (hm : b.mode = .oneshot) (hH : pinHeld s (txTicks s.cfg + 1)) :
    ∃ t, steps (txTicks s.cfg + 1) s = .next t ∧ OneshotEnded s.cfg b.osKind s.blk.rotIdx s.blk.lastPatternMs t := by
  obtain ⟨t, ht, hT⟩ := exists_inOneshot hI ha hc hm (one_le_txTicks hI.cfgWf) (Nat.le_refl _)
    (pinHeld_mono hH (Nat.le_succ _))
  obtain ⟨hr, _⟩ := pinHeld_of_steps hH ht 0 Nat.one_pos
  obtain ⟨u, hu, hU⟩ := hT.ends hr
  exact ⟨u, steps_succ_of_last ht hu, hU⟩

end Oneshot

/-- Settles O32: the run of a one-shot, with the slot and the kind of each of the two commands. -/
theorem oneshotLatency : Obligations.OneshotLatency := by
  unfold Obligations.OneshotLatency
  intro s w hI ha hw hH
  obtain ⟨slot, b, hc, hm, hslot, hkind⟩ := exists_oneshotStart hw s.blk
  obtain ⟨t, ht, hT⟩ := exists_oneshotEnded hI ha hc hm hH
  have hnow := steps_next_nowUs (fun k hk => (hH k hk).1) ht
  refine ⟨fun n hpos hle => ?_, t, ht, decide_eq_true hT.ready, hT.inactive, hT.low, ?_, hT.lastPatternMs, hnow⟩
  · obtain ⟨u, hu, hU⟩ := exists_inOneshot hI ha hc hm hpos hle (pinHeld_mono hH (by omega))
    exact ⟨u, hu, hU.mode, by simp [cmdReady, hU.mode], hU.slot.trans hslot, hU.rotIdx⟩
  · rw [hT.rotIdx, hkind]
    by_cases hd : decode w = .txIdle <;> simp [hd]

end Sys2Proof.Proofs
end

section
/-! Reset and the runs that start from it (70_reset_and_hazards.md R220, R222), the ticks in which the block only waits, and that
every step from a state that meets the invariants answers (60_exceptions.md R203, R205). -/

namespace Sys2Proof.Proofs

open Sys2Proof.Machine Sys2Proof.Laws

/-! ### RESET -/

/-- A booted state is its own RESET, and meets what every RESET meets. -/
theorem boot_meetsInvariants {c : Config} (hc : c.wf) :
    StateOk (State.boot c) ∧ EncoderAgrees (State.boot c) ∧ SlotAgrees (State.boot c) :=
  ⟨stateOk_takeReset (s := State.boot c) hc, encoderAgrees_takeReset (State.boot c), slotAgrees_of_not_sending (.inl rfl)⟩

theorem wf_initial : Config.initial.wf := by decide

/-- Settles O21: the booted state is RESET, under any well-formed configuration, and `Config.initial` is one. -/
theorem resetMeetsInvariants : Obligations.ResetMeetsInvariants :=
  ⟨fun _ => boot_meetsInvariants, boot_meetsInvariants wf_initial⟩

/-- Settles O25: a reset tick gives RESET, and any other tick is one of the cases of a tick, each with its next state. -/
theorem stepAlwaysAnswers : Obligations.StepAlwaysAnswers := by
  unfold Obligations.StepAlwaysAnswers
  intro s hI
  cases hr : s.ports.rst
  · obtain ⟨b, _, hs⟩ := step_cases s hI hr
    exact ⟨_, hs⟩
  · exact ⟨_, step_of_reset s hI.cfgWf hr⟩

/-! ### Ticks in which the block only waits -/

section Waiting

variable {s t : State} {n : Nat}

theorem accepted_of_not_ready (hm : s.blk.mode ≠ .ready) : accepted s = none :=
  (accepted_eq_none s).mpr fun ⟨_, _, hready⟩ => hm hready

theorem accepted_of_rst (hr : s.ports.rst = true) : accepted s = none :=
  (accepted_eq_none s).mpr fun ⟨hno, _, _⟩ => by simp [hr] at hno

/-- READY with no command accepted, and HALTED, have nothing to do in parts A and B (46_commands.md R188). -/
theorem step_of_waiting (hI : StateOk s) (hr : s.ports.rst = false) (ha : accepted s = none)
    (hm : s.blk.mode = .ready ∨ s.blk.mode = .halted) : step s = .next (closeTickC s) := by
  rw [step_eq_tick s hI, tick_of_go s s hr (partA_of_still s (hI.stillIdle hm))]
  rcases hm with hm | hm <;> simp [partB, hm, ha, closeOutcome]

theorem step_of_halted (hI : StateOk s) (hr : s.ports.rst = false) (hm : s.blk.mode = .halted) :
    step s = .next (closeTickC s) :=
  step_of_waiting hI hr (accepted_of_not_ready (by simp [hm])) (.inr hm)

theorem exists_steps_of_halted (hI : StateOk s) (hm : s.blk.mode = .halted) (hr : noReset s n) :
    ∃ t, steps n s = .next t ∧ t.cfg = s.cfg ∧ t.blk = { s.blk with nowUs := s.blk.nowUs + BitVec.ofNat 64 n } := by
  induction n generalizing s with
  | zero => exact ⟨s, rfl, rfl, by simp⟩
  | succ n ih =>
    have hs := step_of_halted hI (hr 0 n.succ_pos) hm
    obtain ⟨_, hrn⟩ := noReset_succ hr hs
    obtain ⟨t, ht, hc, hb⟩ := ih (stateOk_closeTickC hI) (by simpa using hm) hrn
    refine ⟨t, (steps_succ_of_next n s _ hs).trans ht, by simpa using hc, ?_⟩
    rw [hb, closeTickC_blk, BitVec.add_assoc, Nat.add_comm n 1, BitVec.ofNat_add]

theorem steps_next_mode_of_halted (hI : StateOk s) (hm : s.blk.mode = .halted) (hr : noReset s n)
    (h : steps n s = .next t) : t.blk.mode = .halted := by
  obtain ⟨u, hu, _, hb⟩ := exists_steps_of_halted hI hm hr
  cases h.symm.trans hu
  rw [hb]
  exact hm

end Waiting

/-- Settles O46: by induction on the ticks, each of which is part C alone; the mode they keep accepts no command. -/
theorem haltedStaysFrozen : Obligations.HaltedStaysFrozen := by
  unfold Obligations.HaltedStaysFrozen
  intro n s hI hm hr
  obtain ⟨t, ht, hc, hb⟩ := exists_steps_of_halted hI hm hr
  exact ⟨t, ht, hc, hb, accepted_of_not_ready (by simp [hb, hm])⟩

/-! ### The reset tick, and the ticks before it -/

theorem status_reset : status Block.reset = 0x0000#16 := by decide

/-- Settles O19: a reset tick closes RESET with the pad of its pin; without reset HALTED waits, and RUN leaves only for HALTED. -/
theorem resetTickGivesReset : Obligations.ResetTickGivesReset := by
  unfold Obligations.ResetTickGivesReset
  refine ⟨fun s hc hr => ⟨accepted_of_rst hr, _, step_of_reset s hc hr, closeTick_cfg _, closeTick_blk _, ?_, ?_, ?_, ?_⟩,
    fun s t hI hr h => ⟨fun hm => ?_, fun hm => ?_⟩⟩
  · rw [closeTick_blk]
    exact status_reset
  · rw [closeTick_blk]
    rfl
  · exact closeTick_pad_of_ready (takeReset s)
  · exact closeTick_pad_of_not_ready (takeReset s)
  · cases h.symm.trans (step_of_halted hI hr hm)
    simpa using hm
  · obtain ⟨_, hrst | hrun | ⟨hhalt, _⟩⟩ := runHasNoTerminalState s t hI hm h
    · simp [hr] at hrst
    · exact .inl hrun
    · exact .inr hhalt

/-- No step that answers clears the mark of a run that starts from RESET. -/
theorem steps_next_resetSeen_of_resetSeen {n : Nat} {s t : State} (hs : s.resetSeen = true) (h : steps n s = .next t) :
    t.resetSeen = true := by
  induction n generalizing s with
  | zero => cases h; exact hs
  | succ n ih =>
    obtain ⟨u, hu, ht⟩ := steps_succ_eq_next_iff.mp h
    exact ih (step_next_resetSeen s u hu).2 ht

/-- Every run that answers has had its reset, before it or in its first tick (70_reset_and_hazards.md R222). -/
theorem steps_succ_next_resetSeen {n : Nat} {s t : State} (h : steps (n + 1) s = .next t) :
    t.resetSeen = true ∧ (s.resetSeen = true ∨ s.ports.rst = true) := by
  obtain ⟨u, hu, ht⟩ := steps_succ_eq_next_iff.mp h
  obtain ⟨hbefore, hafter⟩ := step_next_resetSeen s u hu
  exact ⟨steps_next_resetSeen_of_resetSeen hafter ht, hbefore⟩

/-- Settles O20: the guard refuses before the first reset, a reset tick closes RESET whatever the record, no step that answers clears
the mark, and a READY block with no command waits. -/
theorem runStartsFromReset : Obligations.RunStartsFromReset := by
  unfold Obligations.RunStartsFromReset
  refine ⟨step_of_no_reset, ?_, fun n s t => steps_succ_next_resetSeen,
    fun s hI hm hr ha => ⟨step_of_waiting hI hr ha (.inl hm), closeTickC_blk s⟩⟩
  intro c b i hc s
  exact ⟨step_of_no_reset s hc rfl,
    fun hr => ⟨_, step_of_reset s hc hr, closeTick_resetSeen _, closeTick_cfg _, closeTick_blk _⟩⟩

end Sys2Proof.Proofs
end

section
/-! The pin and HardwareFault (60_exceptions.md R200-R202, 70_reset_and_hazards.md R228): what a fault in a tick says of the tick and
of the record, and that a tick without a line write does not depend on the pin. -/

namespace Sys2Proof.Proofs

open Sys2Proof.Machine Sys2Proof.Laws

section Tick

variable {s : State} {slot : Nat} {b : Block}

/-! ### What a fault in a tick says -/

theorem startCause_cnt (h : StartCause s slot b) : b.cnt = s.blk.cnt := by cases h <;> rfl

/-- A line write of the transmission in progress failed, at the cell after the last one written or in the gap after the last cell
(60_exceptions.md R202). -/
structure SendFails (s : State) (b : Block) : Prop where
  active : s.blk.txActive = true
  inCell : s.blk.txPhase = .bit
  elapsed : s.blk.cnt = s.cfg.bitUs
  cnt : b.cnt = s.blk.cnt
  cmdErr : b.cmdErr = s.blk.cmdErr
  slot : b.txSlot = s.blk.txSlot
  atCell : b.txPhase = .bit → 8 * b.byteIdx + b.bitIdx = 8 * s.blk.byteIdx + s.blk.bitIdx + 1
  atGap : b.txPhase = .gap → 8 * s.blk.byteIdx + s.blk.bitIdx + 1 = 8 * s.cfg.frameLen

/-- FAULT is set by a start of a transmission or by the transmission in progress, with the pin not ready (60_exceptions.md R201). -/
theorem tickCase_fault_set (hf : s.blk.fault = false) (h : TickCase s b) (hb : b.fault = true) :
    s.ports.pinReady = false ∧
      ((∃ slot c, StartCause s slot c ∧ b = failedStartBlock s.cfg slot c) ∨ SendFails s b) := by
  have hne : s.blk.fault ≠ true := by simp [hf]
  cases h
  case startFails hc hpin => exact ⟨hpin, .inl ⟨_, _, hc, rfl⟩⟩
  case nextBitFails ht hp hc _ hpin =>
    exact ⟨hpin, .inr ⟨ht, hp, hc, rfl, rfl, rfl, fun _ => rfl, fun hgap => by simp [hp] at hgap⟩⟩
  case nextByteFails ht hp hc hbit _ hpin =>
    exact ⟨hpin, .inr ⟨ht, hp, hc, rfl, rfl, rfl, fun _ => by simp only [hbit]; omega, fun hgap => by simp [hp] at hgap⟩⟩
  case gapWriteFails ht hp hc hbit hbyte hpin =>
    exact ⟨hpin, .inr ⟨ht, hp, hc, rfl, rfl, rfl, nofun, fun _ => by omega⟩⟩
  case start hc _ => exact absurd ((startCause_fault hc).symm.trans hb) hne
  all_goals exact absurd hb hne

/-- After a failed bit write the level not written is that of the cell the frozen state names (60_exceptions.md R202). -/
theorem getElem?_levels_of_fault (hI : StateOk s) (hE : EncoderAgrees s) (hf : s.blk.fault = true)
    (hp : s.blk.txPhase = .bit) : (levels (frameOf s.cfg s.blk.txSlot))[8 * s.blk.byteIdx + s.blk.bitIdx]? =
      some (if s.blk.workByte.getLsbD 7 then .high else .low) := by
  rw [getElem?_levels_frameOf _ _ hI.byteRange hI.bitRange, ← sendLevel_eq, hE.workKept hf hp, sendLevel_shift _ _ hI.bitRange,
    currentByte]

end Tick

/-- Settles O44: FAULT is set by a failing line write, of a start or of the transmission in progress, and the invariants say what a
block with FAULT is like. -/
theorem faultEntryHaltsTheBlock : Obligations.FaultEntryHaltsTheBlock := by
  unfold Obligations.FaultEntryHaltsTheBlock
  intro s t hI hr hf h hf'
  have hT := stepKeepsInvariants s t hI h
  have hhalt := hT.faultHalted.mp hf'
  have hstill := hT.stillIdle (.inr hhalt)
  have hnow := step_next_nowUs h
  obtain ⟨b, hb, hs⟩ := step_cases s hI hr
  cases h.symm.trans hs
  obtain ⟨hpin, hcause⟩ := tickCase_fault_set hf hb (by simpa using hf')
  have hwrite : writesLine s = true ∧ b.cnt = s.blk.cnt ∧ b.cmdErr = s.blk.cmdErr := by
    rcases hcause with ⟨slot, c, hc, rfl⟩ | hF
    · exact ⟨startCause_writesLine hc, (startCause_cnt hc :), (startCause_cmdErr hc :)⟩
    · exact ⟨writesLine_of_cellElapsed hF.active hF.inCell hF.elapsed, hF.cnt, hF.cmdErr⟩
  obtain ⟨hw, hcnt, herr⟩ := hwrite
  exact ⟨hw, hpin, hhalt, hstill, hT.lineLow (.inl hstill), by simpa [hr] using hnow, by simpa using hcnt, by simpa using herr,
    closeTickC_cfg _⟩

/-- Settles O45: a start fails at cell 0, the transmission in progress where `SendFails` says, and the working byte keeps the level
by the encoder agreement of the state after the fault. -/
theorem faultNamesTheFailingWrite : Obligations.FaultNamesTheFailingWrite := by
  unfold Obligations.FaultNamesTheFailingWrite
  intro s t hI hE hr hf h hf'
  have hT := stepKeepsInvariants s t hI h
  have hlevel := getElem?_levels_of_fault hT (stepKeepsEncoderAgreement s t hI hE h) hf'
  obtain ⟨b, hb, hs⟩ := step_cases s hI hr
  cases h.symm.trans hs
  obtain ⟨_, hcause⟩ := tickCase_fault_set hf hb (by simpa using hf')
  rw [← and_assoc]
  refine ⟨?_, hlevel⟩
  simp only [closeTickC_blk]
  rcases hcause with ⟨slot, c, hc, rfl⟩ | hF
  · refine ⟨fun ht hp => ?_, fun _ => ⟨rfl, rfl, rfl⟩⟩
    simpa [ht, txDone_of_bit hp] using startCause_not_sending hI hc
  · exact ⟨fun _ _ => ⟨hF.slot, hF.atCell, hF.atGap⟩, fun hn => absurd ⟨hF.active, hF.inCell⟩ hn⟩

/-! ### Ticks without a line write -/

section Unwritten

variable {s : State} {b : Block}

/-- The record after parts A and B of a tick that does not write the line: a completion with no start after it, one more tick of a
cell or gap, one more tick of the yield, or a command that starts nothing. -/
def unwrittenBlock (s : State) : Block :=
  if txDone s then
    if s.blk.mode = .oneshot then { s.blk with txActive := false, mode := .ready, rotIdx := rotIdxAfter s }
    else { s.blk with txActive := false, rotIdx := rotIdxAfter s, runPhase := .yielding, yieldCnt := 1 }
  else if s.blk.txActive then { s.blk with cnt := s.blk.cnt + 1 }
  else if s.blk.mode = .run then { s.blk with yieldCnt := s.blk.yieldCnt + 1 }
  else { s.blk with cmdErr := s.blk.cmdErr || illegalAccepted s }

/-- The state with the pin ready or not. -/
def withPin (p : Bool) (s : State) : State := { s with ports := { s.ports with pinReady := p } }

theorem stateOk_withPin (p : Bool) (hI : StateOk s) : StateOk (withPin p s) := stateOk_of_same (s := s) rfl rfl rfl hI

theorem unwrittenBlock_withPin (p : Bool) (s : State) : unwrittenBlock (withPin p s) = unwrittenBlock s := rfl

theorem writesLine_withPin (p : Bool) (s : State) : writesLine (withPin p s) = writesLine s := rfl

theorem unwrittenBlock_fault (s : State) : (unwrittenBlock s).fault = s.blk.fault := by
  unfold unwrittenBlock
  split_ifs <;> rfl

theorem txDone_of_not_active (ht : s.blk.txActive = false) : txDone s = false := by simp [txDone, ht]

/-- One more tick of a cell or gap. -/
theorem unwritten_counting (hI : StateOk s) (ht : s.blk.txActive = true) (hd : txDone s = false)
    (hc : s.blk.txPhase = .bit → s.blk.cnt < s.cfg.bitUs) :
    writesLine s = false ∧ { s.blk with cnt := s.blk.cnt + 1 } = unwrittenBlock s := by
  refine ⟨?_, by simp [unwrittenBlock, hd, ht]⟩
  rw [writesLine_of_sending hI ht hd]
  simpa using hc

/-- READY and HALTED write the line only to start a transmission. -/
theorem unwritten_still (hI : StateOk s) (hm : s.blk.mode = .ready ∨ s.blk.mode = .halted)
    (ha : ∀ w, accepted s = some w → startsTransmission (decode w) = false) :
    writesLine s = false ∧ { s.blk with cmdErr := s.blk.cmdErr || illegalAccepted s } = unwrittenBlock s := by
  have ht := hI.stillIdle hm
  have hrun : s.blk.mode ≠ .run := by rcases hm with hm | hm <;> simp [hm]
  refine ⟨?_, by simp [unwrittenBlock, txDone_of_not_active ht, ht, hrun]⟩
  cases hw : accepted s with
  | none => simp [writesLine, ht, hw, hrun]
  | some w => simp [writesLine, ht, hw, hrun, ha w hw]

/-- A tick writes the line, and then a pin that is not ready makes it fault, or it does not write it. -/
theorem tickCase_written_or_unwritten (hI : StateOk s) (hr : s.ports.rst = false) (h : TickCase s b) :
    (writesLine s = true ∧ (s.ports.pinReady = false → b.fault = true)) ∨
    (writesLine s = false ∧ b = unwrittenBlock s) := by
  have hrot := tickCase_rotIdx hr h
  cases h
  case start hc hpin => exact .inl ⟨startCause_writesLine hc, by simp [hpin]⟩
  case startFails hc _ => exact .inl ⟨startCause_writesLine hc, fun _ => rfl⟩
  case nextBit ht hp hc _ hpin | nextByte ht hp hc _ _ hpin | gapWrite ht hp hc _ _ hpin =>
    exact .inl ⟨writesLine_of_cellElapsed ht hp hc, by simp [hpin]⟩
  case nextBitFails ht hp hc _ _ | nextByteFails ht hp hc _ _ _ | gapWriteFails ht hp hc _ _ _ =>
    exact .inl ⟨writesLine_of_cellElapsed ht hp hc, fun _ => rfl⟩
  case still h =>
    have ha : accepted s = none := h.elim And.right fun hm => accepted_of_not_ready (by simp [hm])
    have hB := unwritten_still hI (h.imp_left And.left) (by simp [ha])
    exact .inr (by simpa [illegalAccepted, ha] using hB)
  case nop ha hd =>
    obtain ⟨_, _, hm, _⟩ := (accepted_eq_some s _).mp ha
    have hB := unwritten_still hI (.inl hm) (by simp [ha, hd, startsTransmission])
    exact .inr (by simpa [illegalAccepted, ha, hd, Instr.isLegal] using hB)
  case illegal ha hd =>
    obtain ⟨_, _, hm, _⟩ := (accepted_eq_some s _).mp ha
    have hB := unwritten_still hI (.inl hm) (by simp [ha, hd, startsTransmission])
    exact .inr (by simpa [illegalAccepted, ha, hd] using hB)
  case inside ht hp hc => exact .inr (unwritten_counting hI ht (txDone_of_bit hp) fun _ => hc)
  case gapCount ht hp hc => exact .inr (unwritten_counting hI ht (txDone_of_cnt_lt hc) (by simp [hp]))
  case oneshotDone hm hd =>
    obtain ⟨_, hp, _⟩ := (txDone_iff s).mp hd
    refine .inr ⟨by simp [writesLine, hp, hm, accepted_of_not_ready], ?_⟩
    simp only [unwrittenBlock, hd, hm, ← hrot, if_true]
  case idleThenYield hm hph hd hdue hy =>
    obtain ⟨_, hp, _⟩ := (txDone_iff s).mp hd
    refine .inr ⟨by simp [writesLine, hp, hm, hph, hdue, hy, accepted_of_not_ready], ?_⟩
    simp [unwrittenBlock, hd, hm, ← hrot]
  case patternThenYield hm hph hd hy =>
    obtain ⟨_, hp, _⟩ := (txDone_iff s).mp hd
    refine .inr ⟨by simp [writesLine, hp, hm, hph, hy, accepted_of_not_ready], ?_⟩
    simp [unwrittenBlock, hd, hm, ← hrot]
  case yieldCount hm hph hy =>
    have ht := not_active_of_yielding hI hm hph
    refine .inr ⟨by simp [writesLine, ht, hm, hph, hy, accepted_of_not_ready], ?_⟩
    simp [unwrittenBlock, txDone_of_not_active ht, ht, hm]

/-- HardwareFault is the event of a tick in which FAULT is set: it accepts no illegal word (60_exceptions.md R200, R206). -/
theorem eventOf_of_fault_set {t : State} (hI : StateOk s) (hf : s.blk.fault = false) (h : TickCase s b) (hb : b.fault = true)
    (ht : t.blk.fault = true) : eventOf s t = .hardwareFault := by
  have hl : illegalAccepted s = false := Bool.eq_false_iff.mpr fun hl => by
    rw [tickCase_of_illegalAccepted hI hl h] at hb
    simp [hf] at hb
  simp [eventOf, hl, ht, hf]

/-- A tick that does not write the line. -/
theorem step_next_of_unwritten {t : State} (hI : StateOk s) (hr : s.ports.rst = false) (hw : writesLine s = false)
    (h : step s = .next t) : t = closeTickC { s with blk := unwrittenBlock s } := by
  obtain ⟨b, hb, hs⟩ := step_cases s hI hr
  obtain ⟨hw', _⟩ | ⟨_, rfl⟩ := tickCase_written_or_unwritten hI hr hb
  · simp [hw] at hw'
  · exact Host.Outcome.next.inj (h.symm.trans hs)

/-- The pin changes no state in a tick that does not write the line (70_reset_and_hazards.md R228). -/
theorem step_next_withPin_of_unwritten {p : Bool} {t u : State} (hI : StateOk s) (hr : s.ports.rst = false)
    (hw : writesLine s = false) (ht : step (withPin p s) = .next t) (hu : step s = .next u) :
    t.blk = u.blk ∧ t.cfg = u.cfg ∧ t.ports = u.ports ∧ t.feed = u.feed := by
  obtain rfl := step_next_of_unwritten hI hr hw hu
  obtain rfl := step_next_of_unwritten (stateOk_withPin p hI) hr ((writesLine_withPin p s).trans hw) ht
  exact ⟨by simp only [closeTickC_blk, unwrittenBlock_withPin], by simp [withPin], by simp [withPin], by simp [withPin]⟩

theorem step_next_fault_of_unwritten {t : State} (hI : StateOk s) (hr : s.ports.rst = false) (hw : writesLine s = false)
    (h : step s = .next t) : t.blk.fault = s.blk.fault := by
  rw [step_next_of_unwritten hI hr hw h, closeTickC_blk]
  exact unwrittenBlock_fault s

end Unwritten

/-- Settles O43: a written tick faults exactly with the pin not ready, and HALTED stays; the record after an unwritten tick is
`unwrittenBlock`, which does not read the pin. -/
theorem pinMattersOnlyWhenWriting : Obligations.PinMattersOnlyWhenWriting := by
  unfold Obligations.PinMattersOnlyWhenWriting
  intro s hI hr hm
  have hf := fault_eq_false_of_not_halted hI hm
  obtain ⟨b, hb, hs⟩ := step_cases s hI hr
  have hT := stepKeepsInvariants s _ hI hs
  refine ⟨fun hw hpin => ?_, fun hw hpin => ⟨_, hs, Bool.eq_false_iff.mpr fun hf' => ?_⟩, fun hw p t u ht hu => ?_⟩
  · obtain ⟨_, hfails⟩ | ⟨hw', _⟩ := tickCase_written_or_unwritten hI hr hb
    · have hf' : (closeTickC { s with blk := b }).blk.fault = true := by simpa using hfails hpin
      have hhalt := hT.faultHalted.mp hf'
      exact ⟨_, hs, hhalt, hf', eventOf_of_fault_set hI hf hb (hfails hpin) hf', fun n u => steps_next_mode_of_halted hT hhalt⟩
    · simp [hw] at hw'
  · obtain ⟨hpin', _⟩ := tickCase_fault_set hf hb (by simpa using hf')
    simp [hpin] at hpin'
  · obtain ⟨hblk, hcfg, hports, hfeed⟩ := step_next_withPin_of_unwritten hI hr hw ht hu
    obtain ⟨_, hpad⟩ := padFollowsTheLine _ t ht
    exact ⟨hblk, hcfg, hports, hfeed, (step_next_fault_of_unwritten hI hr hw hu).trans hf, fun hp => (hpad hp).1⟩

end Sys2Proof.Proofs
end
